-- ==== Sys2Proof/Word.lean ====
section
/-! DEFINITION. The value types of rs-Chip8 CORE: bytes, 16-bit words, register numbers and key numbers. -/

namespace Sys2Proof

/-- An 8-bit value: a general register, a timer, a memory cell, an immediate `NN` (00_scope.md R11, R13). -/
abbrev Byte := BitVec 8

/-- A 16-bit value: `I`, `pc`, a stack slot, an instruction word (00_scope.md R11). -/
abbrev Word := BitVec 16

/-- A register number 0x0 to 0xF, the index of `V` (10_state.md R21, 30_encoding.md R83). -/
abbrev Reg := Fin 16

/-- A key number 0x0 to 0xF, the index of `K` (10_state.md R31). -/
abbrev Key := Fin 16

/-- VF, the general register that is also the flag register (10_state.md R22). -/
abbrev regF : Reg := 15

end Sys2Proof
end

