-- ==== Sys2Proof/Config.lean ====
section
/-! DEFINITION. What the spec fixes for the machine (00_scope.md R11), the loader's conventions, and the one free value. -/

namespace Sys2Proof

/-- `MEM_SIZE`: memory holds the addresses 0 to 4095 (00_scope.md R11, 20_memory.md R50). -/
abbrev Config.memSize : Nat := 4096

/-- `STACK_CAP`: the call stack holds 48 return addresses (00_scope.md R11, 10_state.md R27). -/
abbrev Config.stackCap : Nat := 48

/-- `PROGRAM_BASE`, the reset value of `pc` and the load address of a program (00_scope.md R11, 10_state.md R36). -/
abbrev Config.programBase : Nat := 0x200

/-- `FONT_BASE`: where this platform's loader puts the font, so that FX29 finds glyph `d` at `5 * d`
(00_scope.md R11, 90_conflicts.md C1, 92_eei_decisions.md D16). -/
abbrev Config.fontBase : Nat := 0x000

/-- `GLYPH_STRIDE`: bytes of one font glyph (00_scope.md R11). -/
abbrev Config.glyphStride : Nat := 5

/-- `MAX_ROM`: the most bytes a program has (00_scope.md R11, 70_reset_and_hazards.md R243). -/
abbrev Config.maxRom : Nat := Config.memSize - Config.programBase

/-- The `n`-th answer of the RNG agent (44_timers_keys_random.md R188): a FREE VALUE, nothing constrains it.
The step that executes CXNN applies it to `State.draws` and advances that counter (log entry 1). -/
opaque Config.randByte : Nat → Byte

/-- The customary hexadecimal font, sixteen glyphs of five bytes (93_implementation_defined.md U9).
PRESUMED: general knowledge, not in the source (log entry 18).  No rule of the core depends on it. -/
def Config.customaryFont : List Byte :=
  [0xF0, 0x90, 0x90, 0x90, 0xF0,  0x20, 0x60, 0x20, 0x20, 0x70,  0xF0, 0x10, 0xF0, 0x80, 0xF0,  0xF0, 0x10, 0xF0, 0x10, 0xF0] ++
  [0x90, 0x90, 0xF0, 0x10, 0x10,  0xF0, 0x80, 0xF0, 0x10, 0xF0,  0xF0, 0x80, 0xF0, 0x90, 0xF0,  0xF0, 0x10, 0x20, 0x40, 0x40] ++
  [0xF0, 0x90, 0xF0, 0x90, 0xF0,  0xF0, 0x90, 0xF0, 0x10, 0xF0,  0xF0, 0x90, 0xF0, 0x90, 0x90,  0xE0, 0x90, 0xE0, 0x90, 0xE0] ++
  [0xF0, 0x80, 0x80, 0x80, 0xF0,  0xE0, 0x90, 0x90, 0x90, 0xE0,  0xF0, 0x80, 0xF0, 0x80, 0xF0,  0xF0, 0x80, 0xF0, 0x80, 0x80]

end Sys2Proof
end

