-- ==== Sys2Proof/Syntax.lean ====
section
/-! DEFINITION. The instructions of rs-Chip8 CORE: one constructor per row of spec/opcode_table.json, in its order
(30_encoding.md R85).  Every operand has a type of exactly its field's width (R81, R82), so no term is out of range. -/

namespace Sys2Proof

/-- The 34 instructions.  `x`, `y` are register numbers, `nn` an 8-bit immediate, `nnn` a 12-bit address, `n` a sprite height. -/
inductive Instr where
  /-- 00E0, clear the display (R161). -/
  | cls
  /-- 00EE, return (R101). -/
  | ret
  /-- 1NNN, jump (R102). -/
  | jp (nnn : BitVec 12)
  /-- 2NNN, call (R103). -/
  | call (nnn : BitVec 12)
  /-- 3XNN, skip if V[X] == NN (R104). -/
  | seImm (x : Reg) (nn : Byte)
  /-- 4XNN, skip if V[X] != NN (R105). -/
  | sneImm (x : Reg) (nn : Byte)
  /-- 5XY0, skip if V[X] == V[Y] (R106). -/
  | seReg (x y : Reg)
  /-- 6XNN, load immediate (R121). -/
  | ldImm (x : Reg) (nn : Byte)
  /-- 7XNN, add immediate, no flag (R122). -/
  | addImm (x : Reg) (nn : Byte)
  /-- 8XY0, move (R123). -/
  | ldReg (x y : Reg)
  /-- 8XY1, or (R124). -/
  | orReg (x y : Reg)
  /-- 8XY2, and (R125). -/
  | andReg (x y : Reg)
  /-- 8XY3, exclusive or (R126). -/
  | xorReg (x y : Reg)
  /-- 8XY4, add with carry flag (R127). -/
  | addReg (x y : Reg)
  /-- 8XY5, subtract (R128). -/
  | sub (x y : Reg)
  /-- 8XY6, shift right; `y` is decoded and ignored (R88, R129). -/
  | shr (x y : Reg)
  /-- 8XY7, reverse subtract (R130). -/
  | subn (x y : Reg)
  /-- 8XYE, shift left; `y` is decoded and ignored (R88, R131). -/
  | shl (x y : Reg)
  /-- 9XY0, skip if V[X] != V[Y] (R107). -/
  | sneReg (x y : Reg)
  /-- ANNN, set the index pointer (R141). -/
  | ldI (nnn : BitVec 12)
  /-- BNNN, jump to V[0] + NNN (R108). -/
  | jpV0 (nnn : BitVec 12)
  /-- CXNN, masked random byte (R181). -/
  | rnd (x : Reg) (nn : Byte)
  /-- DXYN, draw a sprite of height N (R162). -/
  | drw (x y : Reg) (n : Fin 16)
  /-- EX9E, skip if the key is pressed (R182). -/
  | skp (x : Reg)
  /-- EXA1, skip if the key is not pressed (R183). -/
  | sknp (x : Reg)
  /-- FX07, read the delay timer (R184). -/
  | ldVxDt (x : Reg)
  /-- FX0A, wait for a key (R185). -/
  | ldVxK (x : Reg)
  /-- FX15, set the delay timer (R186). -/
  | ldDtVx (x : Reg)
  /-- FX18, set the sound timer (R187). -/
  | ldStVx (x : Reg)
  /-- FX1E, add to the index pointer (R142). -/
  | addI (x : Reg)
  /-- FX29, font address (R143). -/
  | ldF (x : Reg)
  /-- FX33, store decimal digits (R144). -/
  | ldB (x : Reg)
  /-- FX55, store V[0] to V[X] (R145). -/
  | stRegs (x : Reg)
  /-- FX65, load V[0] to V[X] (R146). -/
  | ldRegs (x : Reg)
  deriving DecidableEq, Repr

end Sys2Proof
end

