-- ==== Sys2Proof/WellFormed.lean ====
section
/-! DEFINITION. What is well formed before the machine runs: an instruction word (a row of the opcode map selects it), the
bytes of an instruction, a loader's write, a program image, the host's number of cycles in a frame.  The operands of `Instr`
need no check of their own: their types have exactly the widths of their fields (30_encoding.md R81, R82). -/

namespace Sys2Proof

/-- A row of the opcode map: word `w` selects the row iff `w & mask == pattern` (30_encoding.md R85). -/
structure OpcodeRow where
  mnemonic : String
  mask : Word
  pattern : Word
  deriving DecidableEq, Repr

/-- Rows 1 to 12 of 30_encoding.md R85. -/
def opcodeRows1 : List OpcodeRow :=
  [⟨"CLS", 0xFFFF, 0x00E0⟩, ⟨"RET", 0xFFFF, 0x00EE⟩, ⟨"JP", 0xF000, 0x1000⟩, ⟨"CALL", 0xF000, 0x2000⟩,
   ⟨"SE_IMM", 0xF000, 0x3000⟩, ⟨"SNE_IMM", 0xF000, 0x4000⟩, ⟨"SE_REG", 0xF00F, 0x5000⟩, ⟨"LD_IMM", 0xF000, 0x6000⟩,
   ⟨"ADD_IMM", 0xF000, 0x7000⟩, ⟨"LD_REG", 0xF00F, 0x8000⟩, ⟨"OR", 0xF00F, 0x8001⟩, ⟨"AND", 0xF00F, 0x8002⟩]

/-- Rows 13 to 23 of 30_encoding.md R85. -/
def opcodeRows2 : List OpcodeRow :=
  [⟨"XOR", 0xF00F, 0x8003⟩, ⟨"ADD_REG", 0xF00F, 0x8004⟩, ⟨"SUB", 0xF00F, 0x8005⟩, ⟨"SHR", 0xF00F, 0x8006⟩,
   ⟨"SUBN", 0xF00F, 0x8007⟩, ⟨"SHL", 0xF00F, 0x800E⟩, ⟨"SNE_REG", 0xF00F, 0x9000⟩, ⟨"LD_I", 0xF000, 0xA000⟩,
   ⟨"JP_V0", 0xF000, 0xB000⟩, ⟨"RND", 0xF000, 0xC000⟩, ⟨"DRW", 0xF000, 0xD000⟩]

/-- Rows 24 to 34 of 30_encoding.md R85. -/
def opcodeRows3 : List OpcodeRow :=
  [⟨"SKP", 0xF0FF, 0xE09E⟩, ⟨"SKNP", 0xF0FF, 0xE0A1⟩, ⟨"LD_VX_DT", 0xF0FF, 0xF007⟩, ⟨"LD_VX_K", 0xF0FF, 0xF00A⟩,
   ⟨"LD_DT_VX", 0xF0FF, 0xF015⟩, ⟨"LD_ST_VX", 0xF0FF, 0xF018⟩, ⟨"ADD_I", 0xF0FF, 0xF01E⟩, ⟨"LD_F", 0xF0FF, 0xF029⟩,
   ⟨"LD_B", 0xF0FF, 0xF033⟩, ⟨"ST_REGS", 0xF0FF, 0xF055⟩, ⟨"LD_REGS", 0xF0FF, 0xF065⟩]

/-- The opcode map, 34 rows (30_encoding.md R85, opcode_table.json). -/
def opcodeRows : List OpcodeRow := opcodeRows1 ++ opcodeRows2 ++ opcodeRows3

/-- Word `w` selects row `r` (30_encoding.md R85). -/
def OpcodeRow.selects (r : OpcodeRow) (w : Word) : Bool := w &&& r.mask == r.pattern

/-- Word `w` is a defined instruction; the words for which this is false are the unknown ones (30_encoding.md R85, R86). -/
def wordWellFormed (w : Word) : Bool := opcodeRows.any (·.selects w)

/-- The bytes are one whole defined instruction: exactly two (30_encoding.md R80), high byte first (20_memory.md R55). -/
def bytesWellFormed : List Byte → Bool
  | [hi, lo] => wordWellFormed (hi ++ lo)
  | _ => false

/-- The loader keeps every byte inside 0..4095 (70_reset_and_hazards.md R242).  DESIGN CHOICE: of a `Load` of no bytes, which has no byte to
keep inside, the rule says nothing; the model takes it at an address up to 4096 and not above (log entry 17). -/
def loadWellFormed (addr : Nat) (bytes : List Byte) : Bool := decide (addr + bytes.length ≤ Config.memSize)

/-- A program image is at most `memory_size - 0x200` bytes; the loader rejects any other (70_reset_and_hazards.md R243). -/
def romWellFormed (rom : List Byte) : Bool := decide (rom.length ≤ Config.maxRom)

/-- `CYCLES_PER_FRAME` is a positive integer the host chooses (00_scope.md R11, 92_eei_decisions.md D14). -/
def cyclesPerFrameWellFormed (n : Nat) : Bool := decide (0 < n)

end Sys2Proof
end

