-- ==== Sys2Proof/Machine/State.lean ====
section
/-! DEFINITION. The whole state of the machine (10_state.md R20) as plain data, the error reports (60_exceptions.md R201), the
host's operations (00_scope.md R7), and the state after `Reset` (10_state.md R36, 70_reset_and_hazards.md R240). -/

namespace Sys2Proof.Machine

/-- The fatal errors, each with what its report carries (60_exceptions.md R201).  A fault ends the `Cycle` with no state
change and stops the core (R208). -/
inductive Fault where
  /-- Code 1.  Raised by 2NNN when `SP` = 48; carries `pc0` and `w` (R202).  Safe: the spec's own error. -/
  | stackOverflow (pc0 w : Word)
  /-- Code 2.  Raised by 00EE when `SP` = 0; carries `pc0` and `w` (R203).  Safe: the spec's own error. -/
  | stackUnderflow (pc0 w : Word)
  /-- Code 3, access FETCH.  Raised by the fetch when `pc0 + 1 > 4095`; carries `pc0`, which is the address (R204).
  Safe: the spec's own error. -/
  | fetchOutOfBounds (pc0 : Word)
  /-- Code 3, access DATA.  Raised by DXYN, FX33, FX55, FX65 when the highest address of the access is above 4095; carries
  `pc0`, `w` and the address max(`I`, 4096) (R205).  Safe: the spec's own error. -/
  | dataOutOfBounds (pc0 w : Word) (addr : Nat)
  deriving DecidableEq, Repr

/-- What a `Cycle` can report to the host (60_exceptions.md R200, R201). -/
inductive Report where
  /-- A fatal error; the core is stopped until `Reset` (R208). -/
  | fatal (f : Fault)
  /-- Code 4, recoverable: the offending word and its address (R206). -/
  | unknownInstruction (pc0 w : Word)
  deriving DecidableEq, Repr

/-- Why a step is refused.  No instruction of the model is refused. -/
inductive Refusal where
  /-- Raised only by an arm of `exec` whose instruction has no meaning yet.  Safe: the machine stops. -/
  | notModelled (mnemonic : String)
  /-- Raised by the host's `Load` when a byte would fall outside 0..4095; the loader must keep inside
  (70_reset_and_hazards.md R242), and the spec gives the operation no effect then.  Safe: the machine stops. -/
  | loadOutsideMemory (addr len : Nat)
  /-- Raised by the host's `Load` after the first `Cycle` since `Reset`; the host never writes memory then
  (70_reset_and_hazards.md R242, D26).  Safe: the machine stops. -/
  | loadAfterFirstCycle
  deriving DecidableEq, Repr

/-- The operations the host starts (00_scope.md R7).  `RandByte` is not among them: CORE asks for it inside a `Cycle`. -/
inductive HostOp where
  /-- Construct the state at its reset values (70_reset_and_hazards.md R240). -/
  | reset
  /-- Write bytes into memory, between `Reset` and the first `Cycle` only (R242). -/
  | load (addr : Nat) (bytes : List Byte)
  /-- Fetch one instruction and execute it (00_scope.md R10). -/
  | cycle
  /-- Decrement both timers, saturating at 0 (60_exceptions.md R214). -/
  | tick
  /-- Overwrite the 16 key flags with the 16 bits of `k` (60_exceptions.md R217). -/
  | keysWrite (k : Vector Bool 16)
  /-- Clear the dirty flag (60_exceptions.md R218). -/
  | dirtyAck
  /-- Look at pixels, dirty flag, timers and last report; changes nothing (00_scope.md R7). -/
  | observe
  deriving DecidableEq, Repr

/-- Memory: (address, byte) pairs in one canonical form, see `Memory.wf`; an unlisted address reads as the reset contents,
0 (10_state.md R33, R36). -/
abbrev Memory := List Host.Cell

/-- The pixel grid, 32 rows of 64 pixels; `true` is 1.  The storage order is not architectural (10_state.md R29, log entry 19). -/
abbrev Grid := Vector (Vector Bool 64) 32

/-- The state.  The first eleven fields are the architectural state of 10_state.md R20 under the spec's names; `report` is
the report of the last `Cycle` (00_scope.md R7) and with it the stopped status (60_exceptions.md R208); the last three are
the model's own. -/
structure State where
  /-- General registers V0 to VF (R21). -/
  V : Vector Byte 16
  /-- Index pointer (R23). -/
  I : Word
  /-- Program counter (R24). -/
  pc : Word
  /-- Call-stack slots (R27). -/
  STK : Vector Word 48
  /-- Stack pointer, the number of return addresses held, 0 to 48 (R27). -/
  SP : Fin 49
  /-- Pixels (R29). -/
  P : Grid
  /-- Display dirty flag (R30). -/
  DIRTY : Bool
  /-- Key flags, `true` is pressed (R31). -/
  K : Vector Bool 16
  /-- Delay timer (R32). -/
  DT : Byte
  /-- Sound timer (R32). -/
  ST : Byte
  /-- Memory (R33). -/
  M : Memory
  /-- The report of the last `Cycle`; a fatal one means the core is stopped (00_scope.md R7, 60_exceptions.md R208). -/
  report : Option Report
  /-- Model's own: no `Cycle` has been started since `Reset`, so `Load` may still be used (R242, log entry 17). -/
  fresh : Bool
  /-- Model's own: how many random bytes CORE has asked for (R188, log entry 2). -/
  draws : Nat
  /-- Model's own: the host operations still to come, first first (R7, R9, log entry 15). -/
  agenda : List HostOp
  deriving DecidableEq, Repr

/-- One step's outcome. -/
abbrev Result := Host.Outcome State Fault Refusal

/-- The state right after `Reset` (10_state.md R36, 70_reset_and_hazards.md R240, R241).  `I`, `DIRTY` and `K` follow the spec's
decision D11 (log entry 3); the stack slots are the model's choice (log entry 4). -/
def State.reset : State where
  V := Vector.replicate 16 0
  I := 0
  pc := 0x200
  STK := Vector.replicate 48 0
  SP := 0
  P := Vector.replicate 32 (Vector.replicate 64 false)
  DIRTY := false
  K := Vector.replicate 16 false
  DT := 0
  ST := 0
  M := []
  report := none
  fresh := true
  draws := 0
  agenda := []

end Sys2Proof.Machine
end

