-- ==== Sys2Proof/Machine/Ops.lean ====
section
/-! DEFINITION. The named operations over memory, registers, stack, keys and random bytes; the fetch; and taking an error
(60_exceptions.md R206, R208), shared by every instruction. -/

namespace Sys2Proof.Machine

/-! ### Memory (20_memory.md R53) -/

/-- What an address that memory does not list reads as: the reset contents (10_state.md R36). -/
def Memory.unlisted : Byte := 0

/-- The byte at address `a`: `M[a]` (20_memory.md R53). -/
def Memory.read : Memory → Nat → Byte
  | [], _ => Memory.unlisted
  | (k, b) :: m, a => if k = a then b else Memory.read m a

/-- Put an entry at its place in the rising order. -/
def Memory.insert (a : Nat) (v : Byte) : Memory → Memory
  | [] => [(a, v)]
  | (k, b) :: m => if a < k then (a, v) :: (k, b) :: m else (k, b) :: Memory.insert a v m

/-- Drop every entry of address `a`. -/
def Memory.erase (a : Nat) : Memory → Memory
  | [] => []
  | (k, b) :: m => if k = a then Memory.erase a m else (k, b) :: Memory.erase a m

/-- `M[a] <- v` (20_memory.md R53), keeping the canonical form: writing what an unlisted address reads as drops the entry. -/
def Memory.write (m : Memory) (a : Nat) (v : Byte) : Memory :=
  if v = Memory.unlisted then Memory.erase a m else Memory.insert a v (Memory.erase a m)

/-- The entries' addresses rise strictly from `lo`, are below 4096, and no entry holds the unlisted value. -/
def Memory.wfFrom : Nat → Memory → Bool
  | _, [] => true
  | lo, (k, b) :: m => decide (lo ≤ k) && decide (k < Config.memSize) && decide (b ≠ Memory.unlisted) && Memory.wfFrom (k + 1) m

/-- The canonical form of memory. -/
def Memory.wf (m : Memory) : Bool := Memory.wfFrom 0 m

/-- Write bytes at `a`, `a + 1`, ... in turn (20_memory.md R59). -/
def Memory.writeBytes (m : Memory) (a : Nat) : List Byte → Memory
  | [] => m
  | b :: bs => Memory.writeBytes (Memory.write m a b) (a + 1) bs

/-- The bytes at `a`, `a + 1`, ..., `a + n - 1` (20_memory.md R59). -/
def Memory.readBytes (m : Memory) (a n : Nat) : List Byte := (List.range n).map fun k => Memory.read m (a + k)

/-- The byte at address `a` of a state's memory. -/
def State.memRead (s : State) (a : Nat) : Byte := Memory.read s.M a

/-! ### Registers and the program counter -/

/-- `V[x]` (10_state.md R21). -/
def State.reg (s : State) (x : Reg) : Byte := s.V[x]

/-- `V[x] <- v` (10_state.md R21). -/
def State.setReg (s : State) (x : Reg) (v : Byte) : State := { s with V := s.V.set x v }

/-- `I <- v` (10_state.md R23). -/
def State.setI (s : State) (v : Word) : State := { s with I := v }

/-- `pc <- target` (10_state.md R24). -/
def State.setPc (s : State) (target : Word) : State := { s with pc := target }

/-- `pc <- pc0 + 2`, where `pc` still holds `pc0` (00_scope.md R10).  The model writes `pc` once, when the instruction
completes; a `Cycle` is atomic, so this is the fetch's advance (R8). -/
def State.advance (s : State) : State := s.setPc (s.pc + 2)

/-- A conditional skip: `pc <- pc0 + 4` if the condition holds, else `pc0 + 2` (40_control.md R100, R104). -/
def State.skipIf (s : State) (c : Bool) : State := if c then s.setPc (s.pc + 4) else s.advance

/-! ### Taking an error (60_exceptions.md section 2) -/

/-- `raise Fatal(...)`: the `Cycle` ends with a fatal error and changes no state (60_exceptions.md R208).  The report is the
fault itself; there is no handler, no saved register and no change of mode, and no return from it (R210). -/
def raise (f : Fault) : Result := .fault f

/-- What a fatal report leaves behind: the state as it was, the report handed to the host, the core stopped until `Reset`
(60_exceptions.md R208). -/
def State.stopWith (s : State) (f : Fault) : State := { s with report := some (.fatal f), fresh := false }

/-- The fatal error that stopped the core, if it is stopped (60_exceptions.md R208). -/
def State.stoppedBy (s : State) : Option Fault :=
  match s.report with
  | some (.fatal f) => some f
  | _ => none

/-- `report Unknown(w)`, then `pc <- pc0 + 2` and nothing else (60_exceptions.md R206). -/
def State.reportUnknown (s : State) (w : Word) : State :=
  { s.advance with report := some (.unknownInstruction s.pc w) }

/-- The numeric code of a fatal error (60_exceptions.md R201). -/
def Fault.code : Fault → Nat
  | .stackOverflow _ _ => 1
  | .stackUnderflow _ _ => 2
  | .fetchOutOfBounds _ => 3
  | .dataOutOfBounds _ _ _ => 3

/-- The numeric code of a report (60_exceptions.md R201). -/
def Report.code : Report → Nat
  | .fatal f => Fault.code f
  | .unknownInstruction _ _ => 4

/-! ### Call stack (10_state.md R28) -/

/-- `Push(v)`: nothing if the stack is full, else `STK[SP] <- v` and `SP <- SP + 1` (10_state.md R28). -/
def State.push (s : State) (v : Word) : Option State :=
  if h : s.SP.val < Config.stackCap then
    some { s with STK := s.STK.set s.SP.val v h, SP := ⟨s.SP.val + 1, Nat.succ_lt_succ h⟩ }
  else none

/-- `Pop()`: nothing if the stack is empty, else `SP <- SP - 1` and the value of `STK[SP]` (10_state.md R28). -/
def State.pop (s : State) : Option (Word × State) :=
  if h : 0 < s.SP.val then
    have hSlot : s.SP.val - 1 < 48 := Nat.lt_of_lt_of_le (Nat.sub_lt h Nat.one_pos) (Nat.le_of_lt_succ s.SP.isLt)
    some (s.STK[s.SP.val - 1], { s with SP := ⟨s.SP.val - 1, Nat.lt_succ_of_lt hSlot⟩ })
  else none

/-! ### Random bytes (44_timers_keys_random.md R188) -/

/-- `RandByte()`: the next answer of the RNG agent, a free value; one request is counted (log entries 1 and 2). -/
def State.randByte (s : State) : Byte × State := (Config.randByte s.draws, { s with draws := s.draws + 1 })

/-! ### Fetch (20_memory.md R55, R56) -/

/-- Both bytes of the instruction at `pc` are cells of memory: `pc0 + 1 <= 4095`, compared as natural numbers
(20_memory.md R56; the spec's reading D1, log entry 10). -/
def State.fetchInRange (s : State) : Bool := decide (s.pc.toNat + 1 < Config.memSize)

/-- The instruction word at `pc`, high byte at the lower address (20_memory.md R55); nothing if the bounds check fails. -/
def State.fetchWord (s : State) : Option Word :=
  if s.fetchInRange then some (s.memRead s.pc.toNat ++ s.memRead (s.pc.toNat + 1)) else none

end Sys2Proof.Machine
end

