-- ==== Sys2Proof/Machine/Flags.lean ====
section
/-! DEFINITION. Every flag computation, and the order of the two register writes of the flag instructions (41_alu.md R120,
10_state.md R38). -/

namespace Sys2Proof.Machine

/-- A flag as VF holds it: 1 or 0 (10_state.md R38). -/
def flagByte (c : Bool) : Byte := if c then 1 else 0

/-- 8XY4: 1 iff `a + b > 255` (41_alu.md R127). -/
def carryFlag (a b : Byte) : Bool := decide (255 < a.toNat + b.toNat)

/-- 8XY5 and 8XY7: 1 iff `a > b`, strictly, unsigned (41_alu.md R128, R130). -/
def greaterFlag (a b : Byte) : Bool := decide (b.toNat < a.toNat)

/-- 8XY6: the bit shifted out, `a[0]` (41_alu.md R129). -/
def lowBit (a : Byte) : Bool := a.getLsbD 0

/-- 8XYE: the bit shifted out, `a[7]` (41_alu.md R131). -/
def highBit (a : Byte) : Bool := a.getLsbD 7

/-- `V[x] <- r`, then `V[0xF] <- c`: the order of 8XY4, so with `x` = 0xF the flag remains (41_alu.md R120, R127; log entry 8). -/
def State.setResultThenFlag (s : State) (x : Reg) (r : Byte) (c : Bool) : State := (s.setReg x r).setReg regF (flagByte c)

/-- `V[0xF] <- c`, then `V[x] <- r`: the order of 8XY5, 8XY6, 8XY7, 8XYE, so with `x` = 0xF the result remains
(41_alu.md R120, R128 to R131; log entry 8). -/
def State.setFlagThenResult (s : State) (x : Reg) (r : Byte) (c : Bool) : State := (s.setReg regF (flagByte c)).setReg x r

end Sys2Proof.Machine
end

