-- ==== Sys2Proof/Machine/Alu.lean ====
section
/-! DEFINITION. Register loads and arithmetic: 6XNN, 7XNN, 8XY0 to 8XY7, 8XYE (41_alu.md).  Operands are read from the state
before any write (R120); every one ends with `pc <- pc0 + 2`. -/

namespace Sys2Proof.Machine

/-- 6XNN, `LD Vx, nn` (41_alu.md R121). -/
def execLdImm (x : Reg) (nn : Byte) (s : State) : Result := .next (s.setReg x nn).advance

/-- 7XNN, `ADD Vx, nn` (41_alu.md R122): modulo 256, VF not written. -/
def execAddImm (x : Reg) (nn : Byte) (s : State) : Result := .next (s.setReg x (s.reg x + nn)).advance

/-- 8XY0, `LD Vx, Vy` (41_alu.md R123). -/
def execLdReg (x y : Reg) (s : State) : Result := .next (s.setReg x (s.reg y)).advance

/-- 8XY1, `OR Vx, Vy` (41_alu.md R124): no flag. -/
def execOrReg (x y : Reg) (s : State) : Result := .next (s.setReg x (s.reg x ||| s.reg y)).advance

/-- 8XY2, `AND Vx, Vy` (41_alu.md R125): no flag. -/
def execAndReg (x y : Reg) (s : State) : Result := .next (s.setReg x (s.reg x &&& s.reg y)).advance

/-- 8XY3, `XOR Vx, Vy` (41_alu.md R126): no flag. -/
def execXorReg (x y : Reg) (s : State) : Result := .next (s.setReg x (s.reg x ^^^ s.reg y)).advance

/-- 8XY4, `ADD Vx, Vy` (41_alu.md R127): the sum, then VF = carry. -/
def execAddReg (x y : Reg) (s : State) : Result :=
  .next (s.setResultThenFlag x (s.reg x + s.reg y) (carryFlag (s.reg x) (s.reg y))).advance

/-- 8XY5, `SUB Vx, Vy` (41_alu.md R128): VF = (V[X] > V[Y]), then the difference. -/
def execSub (x y : Reg) (s : State) : Result :=
  .next (s.setFlagThenResult x (s.reg x - s.reg y) (greaterFlag (s.reg x) (s.reg y))).advance

/-- 8XY6, `SHR Vx` (41_alu.md R129): VF = bit 0, then the logical shift; `y` is ignored (30_encoding.md R88). -/
def execShr (x _y : Reg) (s : State) : Result :=
  .next (s.setFlagThenResult x (s.reg x >>> 1) (lowBit (s.reg x))).advance

/-- 8XY7, `SUBN Vx, Vy` (41_alu.md R130): VF = (V[Y] > V[X]), then V[Y] - V[X]. -/
def execSubn (x y : Reg) (s : State) : Result :=
  .next (s.setFlagThenResult x (s.reg y - s.reg x) (greaterFlag (s.reg y) (s.reg x))).advance

/-- 8XYE, `SHL Vx` (41_alu.md R131): VF = bit 7, then the shift; `y` is ignored (30_encoding.md R88). -/
def execShl (x _y : Reg) (s : State) : Result :=
  .next (s.setFlagThenResult x (s.reg x <<< 1) (highBit (s.reg x))).advance

end Sys2Proof.Machine
end

