-- ==== Sys2Proof/Machine/Operands.lean ====
section
/-! DEFINITION. Every operand form: a register, a key number taken from a register, the implicit effective address `I + k` with its
bounds check, and the zero-extended immediates (30_encoding.md R83, 42_index_memory.md R140, 20_memory.md R54, R60). -/

namespace Sys2Proof.Machine

/-- `zext_16(NNN)`, a 12-bit address as a 16-bit value (30_encoding.md R83). -/
def addressOperand (nnn : BitVec 12) : Word := nnn.setWidth 16

/-- `zext_16(V[x])` (42_index_memory.md R142, R143; 40_control.md R108). -/
def State.wideReg (s : State) (x : Reg) : Word := (s.reg x).setWidth 16

/-- The key that `V[x]` names: its low nibble, the high nibble is ignored (44_timers_keys_random.md R182). -/
def State.keyOf (s : State) (x : Reg) : Key := ((s.reg x).extractLsb' 0 4).toFin

/-- `K[k] == 1` (10_state.md R31). -/
def State.keyDown (s : State) (k : Key) : Bool := s.K[k]

/-- The least `k` with `K[k] == 1`, from an ascending scan; nothing if no key is pressed (44_timers_keys_random.md R185). -/
def State.firstKey (s : State) : Option Key := (List.finRange 16).find? s.keyDown

/-- The effective address `I + k`, a natural number, never wrapped (20_memory.md R54, 42_index_memory.md R140). -/
def State.effAddr (s : State) (k : Nat) : Nat := s.I.toNat + k

/-- Every address of a data access of `len` bytes at `I` is a cell of memory; an access of no bytes always passes
(20_memory.md R60; decisions D5, D6, D7, log entry 9). -/
def State.dataInRange (s : State) (len : Nat) : Bool :=
  decide (len = 0) || decide (s.effAddr (len - 1) < Config.memSize)

/-- The lowest out-of-range address of a failing data access, max(`I`, 4096) (20_memory.md R60). -/
def State.badDataAddr (s : State) : Nat := max s.I.toNat Config.memSize

/-- The bounds check of a data instruction `w` over `len` bytes, made before any of its accesses or writes: on failure
`Fatal(OutOfBounds, DATA, max(I, 4096))` and no effect at all (20_memory.md R60, 60_exceptions.md R205). -/
def State.withData (s : State) (w : Word) (len : Nat) (body : State → State) : Result :=
  if s.dataInRange len then .next (body s) else raise (.dataOutOfBounds s.pc w s.badDataAddr)

end Sys2Proof.Machine
end

