-- ==== Sys2Proof/Machine/Control.lean ====
section
/-! DEFINITION. Control transfer: 00EE, 1NNN, 2NNN, 3XNN, 4XNN, 5XY0, 9XY0, BNNN (40_control.md).  In every meaning `s.pc` is `pc0`. -/

namespace Sys2Proof.Machine

/-- 00EE, `RET` (40_control.md R101): pop into `pc`, or `StackUnderflow` when `SP` = 0. -/
def execRet (s : State) : Result :=
  match s.pop with
  | some (target, t) => .next (t.setPc target)
  | none => raise (.stackUnderflow s.pc (encode .ret))

/-- 1NNN, `JP nnn` (40_control.md R102). -/
def execJp (nnn : BitVec 12) (s : State) : Result := .next (s.setPc (addressOperand nnn))

/-- 2NNN, `CALL nnn` (40_control.md R103): push `pc0 + 2`, or `StackOverflow` when `SP` = 48. -/
def execCall (nnn : BitVec 12) (s : State) : Result :=
  match s.push (s.pc + 2) with
  | some t => .next (t.setPc (addressOperand nnn))
  | none => raise (.stackOverflow s.pc (encode (.call nnn)))

/-- 3XNN, `SE Vx, nn` (40_control.md R104). -/
def execSeImm (x : Reg) (nn : Byte) (s : State) : Result := .next (s.skipIf (s.reg x == nn))

/-- 4XNN, `SNE Vx, nn` (40_control.md R105). -/
def execSneImm (x : Reg) (nn : Byte) (s : State) : Result := .next (s.skipIf (s.reg x != nn))

/-- 5XY0, `SE Vx, Vy` (40_control.md R106). -/
def execSeReg (x y : Reg) (s : State) : Result := .next (s.skipIf (s.reg x == s.reg y))

/-- 9XY0, `SNE Vx, Vy` (40_control.md R107). -/
def execSneReg (x y : Reg) (s : State) : Result := .next (s.skipIf (s.reg x != s.reg y))

/-- BNNN, `JP V0, nnn` (40_control.md R108): V[0] + NNN, not reduced to 12 bits. -/
def execJpV0 (nnn : BitVec 12) (s : State) : Result := .next (s.setPc (s.wideReg 0 + addressOperand nnn))

end Sys2Proof.Machine
end

