-- ==== Sys2Proof/Machine/Display.lean ====
section
/-! DEFINITION. The display: the pixel grid, the XOR sprite compositor, 00E0 and DXYN (43_display.md). -/

namespace Sys2Proof.Machine

/-- `P[x, y]` (10_state.md R29). -/
def Grid.pixel (g : Grid) (x : Fin 64) (y : Fin 32) : Bool := g[y][x]

/-- `P[x, y] <- P[x, y] ^ 1` (43_display.md R162). -/
def Grid.flip (g : Grid) (x : Fin 64) (y : Fin 32) : Grid := g.set y (g[y].set x (!g[y][x]))

/-- The grid with every pixel 0 (43_display.md R161). -/
def Grid.blank : Grid := Vector.replicate 32 (Vector.replicate 64 false)

/-- The column a sprite bit lands on, `(x0 + col) mod 64` (43_display.md R162, R163). -/
def wrapColumn (x0 col : Nat) : Fin 64 := Fin.ofNat 64 (x0 + col)

/-- The row a sprite row lands on, `(y0 + row) mod 32` (43_display.md R162, R163). -/
def wrapRow (y0 row : Nat) : Fin 32 := Fin.ofNat 32 (y0 + row)

/-- One bit of a sprite row: if it is set, test the target pixel for a collision, then flip it; column 0 is the most
significant bit (43_display.md R162). -/
def drawBit (x0 : Nat) (py : Fin 32) (b : Byte) (c : Grid × Bool) (col : Nat) : Grid × Bool :=
  if b.getLsbD (7 - col) then
    (Grid.flip c.1 (wrapColumn x0 col) py, c.2 || Grid.pixel c.1 (wrapColumn x0 col) py)
  else c

/-- The eight bits of one sprite row, in order (43_display.md R162). -/
def drawRow (x0 : Nat) (py : Fin 32) (b : Byte) (c : Grid × Bool) : Grid × Bool :=
  (List.range 8).foldl (drawBit x0 py b) c

/-- The sprite rows from number `row` on, in order (43_display.md R162). -/
def drawRows (x0 y0 : Nat) : Nat → List Byte → Grid × Bool → Grid × Bool
  | _, [], c => c
  | row, b :: bs, c => drawRows x0 y0 (row + 1) bs (drawRow x0 (wrapRow y0 row) b c)

/-- `draw(x, y, height)`: the composed grid and whether a pixel that was 1 was met (43_display.md R162). -/
def compose (x0 y0 : Nat) (sprite : List Byte) (g : Grid) : Grid × Bool := drawRows x0 y0 0 sprite (g, false)

/-- The sprite: the `n` bytes at `I` (43_display.md R162). -/
def State.sprite (s : State) (n : Nat) : List Byte := Memory.readBytes s.M (s.effAddr 0) n

/-- Draw an `n`-row sprite at `(V[x], V[y])`: the coordinates are read before VF is written, VF is the collision, `DIRTY` is set
always (43_display.md R162, R164, R165). -/
def State.drawSprite (s : State) (x y : Reg) (n : Nat) : State :=
  let c := compose (s.reg x).toNat (s.reg y).toNat (s.sprite n) s.P
  { s.setReg regF (flagByte c.2) with P := c.1, DIRTY := true }

/-- 00E0, `CLS` (43_display.md R161): every pixel 0, `DIRTY` set. -/
def execCls (s : State) : Result := .next { s with P := Grid.blank, DIRTY := true }.advance

/-- DXYN, `DRW Vx, Vy, n` (43_display.md R162 to R165): `N` = 0 reads nothing and cannot fail. -/
def execDrw (x y : Reg) (n : Fin 16) (s : State) : Result :=
  s.withData (encode (.drw x y n)) n.val fun t => (t.drawSprite x y n.val).advance

end Sys2Proof.Machine
end

