-- ==== Sys2Proof/Machine/IndexMemory.lean ====
section
/-! DEFINITION. Index pointer and memory transfer: ANNN, FX1E, FX29, FX33, FX55, FX65 (42_index_memory.md).  FX33, FX55 and FX65 leave
`I` unchanged (R140, D9, log entry 11). -/

namespace Sys2Proof.Machine

/-- ANNN, `LD I, nnn` (42_index_memory.md R141). -/
def execLdI (nnn : BitVec 12) (s : State) : Result := .next (s.setI (addressOperand nnn)).advance

/-- FX1E, `ADD I, Vx` (42_index_memory.md R142): modulo 65536, no flag. -/
def execAddI (x : Reg) (s : State) : Result := .next (s.setI (s.I + s.wideReg x)).advance

/-- FX29, `LD F, Vx` (42_index_memory.md R143): all 8 bits of V[X] times 5 (D13, log entry 14). -/
def execLdF (x : Reg) (s : State) : Result := .next (s.setI (s.wideReg x * 5)).advance

/-- The hundreds, tens and units of a byte (42_index_memory.md R144). -/
def decimalDigits (v : Byte) : List Byte := [v / 100, v / 10 % 10, v % 10]

/-- Store bytes at `I`, `I + 1`, ... (20_memory.md R58). -/
def State.storeAtI (s : State) (bytes : List Byte) : State := { s with M := Memory.writeBytes s.M (s.effAddr 0) bytes }

/-- The first `n` passes of FX65's loop: `V[i] <- MemRead(I + i, 1)` for `i` below `n` (42_index_memory.md R146). -/
def State.loadRegs (s : State) : Nat → State
  | 0 => s
  | n + 1 => (s.loadRegs n).setReg (Fin.ofNat 16 n) (s.memRead (s.effAddr n))

/-- V[0] to V[x], inclusive (42_index_memory.md R145). -/
def State.regsUpTo (s : State) (x : Reg) : List Byte := s.V.toList.take (x.val + 1)

/-- FX33, `LD B, Vx` (42_index_memory.md R144): all three bytes or none. -/
def execLdB (x : Reg) (s : State) : Result :=
  s.withData (encode (.ldB x)) 3 fun t => (t.storeAtI (decimalDigits (t.reg x))).advance

/-- FX55, `LD [I], Vx` (42_index_memory.md R145): `X + 1` bytes or none. -/
def execStRegs (x : Reg) (s : State) : Result :=
  s.withData (encode (.stRegs x)) (x.val + 1) fun t => (t.storeAtI (t.regsUpTo x)).advance

/-- FX65, `LD Vx, [I]` (42_index_memory.md R146): `X + 1` registers or none. -/
def execLdRegs (x : Reg) (s : State) : Result :=
  s.withData (encode (.ldRegs x)) (x.val + 1) fun t => (t.loadRegs (x.val + 1)).advance

end Sys2Proof.Machine
end

