-- ==== Sys2Proof/Machine/Peripherals.lean ====
section
/-! DEFINITION. Random, keyboard and timer instructions: CXNN, EX9E, EXA1, FX07, FX0A, FX15, FX18 (44_timers_keys_random.md). -/

namespace Sys2Proof.Machine

/-- CXNN, `RND Vx, nn` (44_timers_keys_random.md R181): one random byte is requested, also when `NN` = 0. -/
def execRnd (x : Reg) (nn : Byte) (s : State) : Result :=
  .next (s.randByte.2.setReg x (nn &&& s.randByte.1)).advance

/-- EX9E, `SKP Vx` (44_timers_keys_random.md R182). -/
def execSkp (x : Reg) (s : State) : Result := .next (s.skipIf (s.keyDown (s.keyOf x)))

/-- EXA1, `SKNP Vx` (44_timers_keys_random.md R183). -/
def execSknp (x : Reg) (s : State) : Result := .next (s.skipIf (!s.keyDown (s.keyOf x)))

/-- FX07, `LD Vx, DT` (44_timers_keys_random.md R184). -/
def execLdVxDt (x : Reg) (s : State) : Result := .next (s.setReg x s.DT).advance

/-- FX0A, `LD Vx, K` (44_timers_keys_random.md R185): the least pressed key, or `pc <- pc0` so that the next `Cycle` fetches the
same instruction again. -/
def execLdVxK (x : Reg) (s : State) : Result :=
  match s.firstKey with
  | some k => .next (s.setReg x (BitVec.ofNat 8 k.val)).advance
  | none => .next (s.setPc s.pc)

/-- FX15, `LD DT, Vx` (44_timers_keys_random.md R186). -/
def execLdDtVx (x : Reg) (s : State) : Result := .next { s with DT := s.reg x }.advance

/-- FX18, `LD ST, Vx` (44_timers_keys_random.md R187). -/
def execLdStVx (x : Reg) (s : State) : Result := .next { s with ST := s.reg x }.advance

end Sys2Proof.Machine
end

