-- ==== Sys2Proof/Machine/HostOps.lean ====
section
/-! DEFINITION. The host's operations other than `Cycle` (00_scope.md R7): `Reset`, `Load`, `Tick`, `KeysWrite`, `DirtyAck`, observe;
and the host's described orders of operations: booting (70_reset_and_hazards.md R245) and one frame (00_scope.md R9). -/

namespace Sys2Proof.Machine

/-- `Reset` by the host: the reset state; the RNG agent's count and the host's own agenda are not the Device's and go on
(70_reset_and_hazards.md R240; log entry 16). -/
def State.hostReset (s : State) : State := { State.reset with draws := s.draws, agenda := s.agenda }

/-- `Load(addr, bytes)` (70_reset_and_hazards.md R242): only between `Reset` and the first `Cycle`, every byte inside 0..4095
(log entry 17). -/
def hostLoad (addr : Nat) (bytes : List Byte) (s : State) : Result :=
  if s.fresh then
    if loadWellFormed addr bytes then .next { s with M := Memory.writeBytes s.M addr bytes }
    else .refused (.loadOutsideMemory addr bytes.length)
  else .refused .loadAfterFirstCycle

/-- One timer of `Tick`: minus 1, saturating at 0 (60_exceptions.md R214). -/
def tickTimer (t : Byte) : Byte := if t = 0 then 0 else t - 1

/-- `Tick`: both timers, nothing else (60_exceptions.md R214). -/
def State.tick (s : State) : State := { s with DT := tickTimer s.DT, ST := tickTimer s.ST }

/-- `KeysWrite(k)`: `K[i] <- k[i]` for all 16 keys (60_exceptions.md R217). -/
def State.keysWrite (s : State) (k : Vector Bool 16) : State := { s with K := k }

/-- `DirtyAck`: `DIRTY <- 0` (60_exceptions.md R218). -/
def State.dirtyAck (s : State) : State := { s with DIRTY := false }

/-- A tone should be playing: `ST > 0` (60_exceptions.md R216). -/
def State.toneOn (s : State) : Bool := decide (0 < s.ST.toNat)

/-- What the host sees between operations (00_scope.md R7; 60_exceptions.md R208, R216, R218). -/
structure Observation where
  pixels : Grid
  dirty : Bool
  delayTimer : Byte
  soundTimer : Byte
  tone : Bool
  report : Option Report
  deriving DecidableEq, Repr

/-- The host's observation; it changes nothing (00_scope.md R7). -/
def State.observe (s : State) : Observation :=
  { pixels := s.P, dirty := s.DIRTY, delayTimer := s.DT, soundTimer := s.ST, tone := s.toneOn, report := s.report }

/-- The boot sequence: `Reset`, the font at `FONT_BASE`, the program at 0x200, the initial keys (70_reset_and_hazards.md R245); nothing
for a program the loader must reject (R243).  DESIGN CHOICE: the spec's font is 80 bytes (R244) and it gives the loader no duty to reject
another; the model takes a font of any length, `[]` standing for the boot without a font, and all keys up for the boot without an
initial `KeysWrite`, which R245 allows (log entry 18). -/
def bootAgenda (font program : List Byte) (keys : Vector Bool 16) : Option (List HostOp) :=
  if romWellFormed program then
    some [.reset, .load Config.fontBase font, .load Config.programBase program, .keysWrite keys]
  else none

/-- One frame of the source's schedule: keys, `CYCLES_PER_FRAME` cycles, one tick, then the host looks and acknowledges the
picture (00_scope.md R9); nothing for a number of cycles that is not positive (R11).  `CYCLES_PER_FRAME` is open otherwise: it is
an argument (log entry 22). -/
def frameAgenda (cyclesPerFrame : Nat) (keys : Vector Bool 16) : Option (List HostOp) :=
  if cyclesPerFrameWellFormed cyclesPerFrame then
    some (.keysWrite keys :: List.replicate cyclesPerFrame .cycle ++ [.tick, .observe, .dirtyAck])
  else none

end Sys2Proof.Machine
end

