-- ==== Sys2Proof/Machine/Cycle.lean ====
section
/-! DEFINITION. The `Cycle` (00_scope.md R10), one host operation, and placing an instruction where the next fetch reads. -/

namespace Sys2Proof.Machine

/-- What starting a `Cycle` does to the model's bookkeeping: the previous report is no longer that of the last `Cycle`, and the
`Load` window is over (00_scope.md R7, 70_reset_and_hazards.md R242; log entries 17 and 28). -/
def State.beginCycle (s : State) : State := { s with report := none, fresh := false }

/-- Decode and execute the fetched word: a defined word runs its instruction, any other is reported and skipped
(30_encoding.md R84, 60_exceptions.md R206, R207). -/
def executeWord (w : Word) (s : State) : Result :=
  match decodeWord w with
  | .ok i => exec i s
  | .error _ => .next (s.reportUnknown w)

/-- `Cycle`: bounds check, fetch, execute (00_scope.md R10, 60_exceptions.md R207).  A stopped core performs none; asked again it
gives the same fatal report (60_exceptions.md R208). -/
def cycle (s : State) : Result :=
  match s.stoppedBy with
  | some f => raise f
  | none =>
    match s.fetchWord with
    | none => raise (.fetchOutOfBounds s.pc)
    | some w => executeWord w s.beginCycle

/-- One operation of the host (00_scope.md R7). -/
def perform (op : HostOp) (s : State) : Result :=
  match op with
  | .reset => .next s.hostReset
  | .load addr bytes => hostLoad addr bytes s
  | .cycle => cycle s
  | .tick => .next s.tick
  | .keysWrite k => .next (s.keysWrite k)
  | .dirtyAck => .next s.dirtyAck
  | .observe => .next s

/-- The next operation: the first of the agenda, or a `Cycle` when the agenda is empty (00_scope.md R6, R7, R9; log entry 15). -/
def nextOperation (s : State) : Result :=
  match s.agenda with
  | [] => cycle s
  | op :: rest => perform op { s with agenda := rest }

/-- The agenda with a `Cycle` before everything else; an empty agenda already means a `Cycle`. -/
def cycleFirst : List HostOp → List HostOp
  | [] => []
  | op :: rest => .cycle :: op :: rest

/-- The state with the host asking for a `Cycle` next, the core not stopped, and `pc` where an instruction can stand: `pc` itself, or
the entry point if `pc` is outside memory (log entry 21). -/
def State.readyToFetch (s : State) : State :=
  { s with
    agenda := cycleFirst s.agenda
    report := if s.stoppedBy.isSome then none else s.report
    pc := if s.fetchInRange then s.pc else BitVec.ofNat 16 Config.programBase }

/-- Store a word at `pc`, high byte first (20_memory.md R55). -/
def State.placeWord (s : State) (w : Word) : State := { s with M := Memory.writeBytes s.M s.pc.toNat (wordBytes w) }

end Sys2Proof.Machine
end

