-- ==== Sys2Proof/Machine/Step.lean ====
section
/-! DEFINITION. The step: one operation of the machine's serialized history (00_scope.md R7, R8). -/

namespace Sys2Proof.Machine

/-- One step: the next operation the host asks for, a `Cycle` when it asks for nothing else (00_scope.md R6 to R10). -/
def step (s : State) : Host.Outcome State Fault Refusal := nextOperation s

/-- `s` with the instruction whose bits, numbered as spec/opcode_table.json numbers them, are `w`, where the next step fetches
(log entry 21). -/
def State.withFetchWord (s : State) (nbits w : Nat) : State := s.readyToFetch.placeWord (tableWord nbits w)

end Sys2Proof.Machine
end

