-- ==== Sys2Proof/Machine/HostRun.lean ====
section
/-! DEFINITION. What the host is left with after each operation, fatal errors included (60_exceptions.md R208, R210): `step` ends with a
fault on a fatal error, and `hostStep` goes on with the stopped core that the error leaves. -/

namespace Sys2Proof.Machine

/-- The operation just asked for is off the agenda. -/
def State.popAgenda (s : State) : State := { s with agenda := s.agenda.tail }

/-- The state the host is left with: the next state; or, after a fatal report, the state as it was, stopped
(60_exceptions.md R208); or, after a refused `Load`, the state as it was. -/
def surface (s : State) : Result → State
  | .next t => t
  | .fault f => s.popAgenda.stopWith f
  | .refused _ => s.popAgenda

/-- One operation as the host lives it (60_exceptions.md R208). -/
def hostStep (s : State) : State := surface s (step s)

/-- `n` operations as the host lives them. -/
def hostRun : Nat → State → State
  | 0, s => s
  | n + 1, s => hostRun n (hostStep s)

end Sys2Proof.Machine
end

