-- ==== Sys2Proof/Safety.lean ====
section
/-! DEFINITION. The terms in which claims are made: which parts of the state an instruction may write (10_state.md R37), the
invariants of the machine, indistinguishable states, and the end of a run (70_reset_and_hazards.md R246). -/

namespace Sys2Proof.Machine

/-- The parts of the state, each compared as a program or the host reads it: registers one by one, pixels one by one, memory
byte by byte over every address (10_state.md R20). -/
inductive Part where
  | regs
  | index
  | pc
  | slots
  | sp
  | pixels
  | dirty
  | keys
  | delay
  | sound
  | memory
  | report
  | fresh
  | draws
  | agenda
  deriving DecidableEq, Repr

/-- The part reads the same in both states. -/
def Part.same : Part → State → State → Prop
  | .regs, s, t => ∀ r, t.reg r = s.reg r
  | .index, s, t => t.I = s.I
  | .pc, s, t => t.pc = s.pc
  | .slots, s, t => ∀ k : Fin 48, t.STK[k] = s.STK[k]
  | .sp, s, t => t.SP = s.SP
  | .pixels, s, t => ∀ x y, Grid.pixel t.P x y = Grid.pixel s.P x y
  | .dirty, s, t => t.DIRTY = s.DIRTY
  | .keys, s, t => ∀ k, t.keyDown k = s.keyDown k
  | .delay, s, t => t.DT = s.DT
  | .sound, s, t => t.ST = s.ST
  | .memory, s, t => ∀ a, t.memRead a = s.memRead a
  | .report, s, t => t.report = s.report
  | .fresh, s, t => t.fresh = s.fresh
  | .draws, s, t => t.draws = s.draws
  | .agenda, s, t => t.agenda = s.agenda

/-- Every part outside `ps` reads the same in both states. -/
def UnchangedExcept (ps : List Part) (s t : State) : Prop := ∀ p, p ∉ ps → Part.same p s t

/-- The general registers an instruction may write: the V[X], V[0xF] and other-V columns of the access matrix
(10_state.md R37, R38). -/
def destRegs : Instr → List Reg
  | .cls | .ret | .jp _ | .call _ | .seImm _ _ | .sneImm _ _ | .seReg _ _ | .sneReg _ _ | .ldI _ | .jpV0 _ => []
  | .ldImm x _ | .addImm x _ | .ldReg x _ | .orReg x _ | .andReg x _ | .xorReg x _ => [x]
  | .addReg x _ | .sub x _ | .shr x _ | .subn x _ | .shl x _ => [x, regF]
  | .rnd x _ | .ldVxDt x | .ldVxK x => [x]
  | .drw _ _ _ => [regF]
  | .skp _ | .sknp _ | .ldDtVx _ | .ldStVx _ | .addI _ | .ldF _ | .ldB _ | .stRegs _ => []
  | .ldRegs x => (List.finRange 16).filter (· ≤ x)

/-- The other parts an instruction may write, memory apart: the remaining columns of the access matrix (10_state.md R37). -/
def destParts : Instr → List Part
  | .cls => [.pc, .pixels, .dirty]
  | .ret => [.pc, .sp]
  | .call _ => [.pc, .sp, .slots]
  | .ldI _ | .addI _ | .ldF _ => [.pc, .index]
  | .rnd _ _ => [.pc, .draws]
  | .drw _ _ _ => [.pc, .pixels, .dirty]
  | .ldDtVx _ => [.pc, .delay]
  | .ldStVx _ => [.pc, .sound]
  | .jp _ | .seImm _ _ | .sneImm _ _ | .seReg _ _ | .sneReg _ _ | .jpV0 _ => [.pc]
  | .ldImm _ _ | .addImm _ _ | .ldReg _ _ | .orReg _ _ | .andReg _ _ | .xorReg _ _ => [.pc]
  | .addReg _ _ | .sub _ _ | .shr _ _ | .subn _ _ | .shl _ _ => [.pc]
  | .skp _ | .sknp _ | .ldVxDt _ | .ldVxK _ | .ldB _ | .stRegs _ | .ldRegs _ => [.pc]

/-- How many bytes of memory an instruction accesses as data, from `I` upward (20_memory.md R58, R60). -/
def dataLen : Instr → Nat
  | .drw _ _ n => n.val
  | .ldB _ => 3
  | .stRegs x | .ldRegs x => x.val + 1
  | .cls | .ret | .jp _ | .call _ | .seImm _ _ | .sneImm _ _ | .seReg _ _ | .sneReg _ _ | .ldI _ | .jpV0 _ => 0
  | .ldImm _ _ | .addImm _ _ | .ldReg _ _ | .orReg _ _ | .andReg _ _ | .xorReg _ _ => 0
  | .addReg _ _ | .sub _ _ | .shr _ _ | .subn _ _ | .shl _ _ => 0
  | .rnd _ _ | .skp _ | .sknp _ | .ldVxDt _ | .ldVxK _ | .ldDtVx _ | .ldStVx _ | .addI _ | .ldF _ => 0

/-- How many bytes an instruction stores, from `I` upward (20_memory.md R58). -/
def storeLen : Instr → Nat
  | .ldB _ => 3
  | .stRegs x => x.val + 1
  | .cls | .ret | .jp _ | .call _ | .seImm _ _ | .sneImm _ _ | .seReg _ _ | .sneReg _ _ | .ldI _ | .jpV0 _ => 0
  | .ldImm _ _ | .addImm _ _ | .ldReg _ _ | .orReg _ _ | .andReg _ _ | .xorReg _ _ => 0
  | .addReg _ _ | .sub _ _ | .shr _ _ | .subn _ _ | .shl _ _ => 0
  | .rnd _ _ | .drw _ _ _ | .skp _ | .sknp _ | .ldVxDt _ | .ldVxK _ | .ldDtVx _ | .ldStVx _ | .addI _ | .ldF _ => 0
  | .ldRegs _ => 0

/-- Memory is in its canonical form. -/
def State.MemoryCanonical (s : State) : Prop := Memory.wf s.M = true

/-- `pc <= 0x10FE`, and every live return address is at most 4096 (10_state.md R26). -/
def State.PcBounded (s : State) : Prop :=
  s.pc.toNat ≤ 0x10FE ∧ ∀ k : Fin 48, k.val < s.SP.val → s.STK[k].toNat ≤ 4096

/-- A stopped core has left the `Load` window (60_exceptions.md R208, 70_reset_and_hazards.md R242). -/
def State.StoppedNotFresh (s : State) : Prop := s.stoppedBy.isSome = true → s.fresh = false

/-- The two states differ at most in stack slots at and above `SP` (10_state.md R27). -/
def SameLiveStack (s t : State) : Prop :=
  t = { s with STK := t.STK } ∧ ∀ k : Fin 48, k.val < s.SP.val → t.STK[k] = s.STK[k]

/-- The two states differ at most in `DIRTY` and `ST`, which no instruction reads (10_state.md R30, R32). -/
def SameButDirtyAndSound (s t : State) : Prop := t = { s with DIRTY := t.DIRTY, ST := t.ST }

/-- A run has come to its end: the next instruction is a jump to itself (70_reset_and_hazards.md R246, D27, log entry 25). -/
def State.atSelfJump (s : State) : Prop :=
  ∃ nnn : BitVec 12, s.fetchWord = some (encode (.jp nnn)) ∧ s.pc.toNat = nnn.toNat

/-- A safe step: it answers a next state, so no fatal error and no refusal (60_exceptions.md R200). -/
def State.StepSafe (s : State) : Prop := ∃ t, step s = .next t

end Sys2Proof.Machine
end

