-- ==== Sys2Proof/Certificates/Slice0/Obligations.lean ====
section
/-! DEFINITION. The statements for the provers.  Each docstring says which sentence or rule of spec/ it formalises; where a statement
rests on a decision of the spec or of the model, its docstring names the log entry. -/

namespace Sys2Proof.Claims

open Sys2Proof.Machine

/-- Exactly the words with `w[15:12]` = `op` decode to `f NNN` (30_encoding.md R82, format NNN). -/
def DecodesNNN (op : BitVec 4) (f : BitVec 12 → Instr) : Prop :=
  ∀ (w : Word) (nnn : BitVec 12),
    decodeWord w = .ok (f nnn) ↔ w.extractLsb' 12 4 = op ∧ w.extractLsb' 0 12 = nnn

/-- Exactly the words with `w[15:12]` = `op` decode to `f X NN` (30_encoding.md R82, format XNN). -/
def DecodesXNN (op : BitVec 4) (f : Reg → Byte → Instr) : Prop :=
  ∀ (w : Word) (x : Reg) (nn : Byte),
    decodeWord w = .ok (f x nn) ↔
      w.extractLsb' 12 4 = op ∧ (w.extractLsb' 8 4).toNat = x.val ∧ w.extractLsb' 0 8 = nn

/-- Exactly the words with `w[15:12]` = `op` and `w[3:0]` = `low` decode to `f X Y` (30_encoding.md R82, format XYN). -/
def DecodesXY (op low : BitVec 4) (f : Reg → Reg → Instr) : Prop :=
  ∀ (w : Word) (x y : Reg),
    decodeWord w = .ok (f x y) ↔
      w.extractLsb' 12 4 = op ∧ (w.extractLsb' 8 4).toNat = x.val ∧ (w.extractLsb' 4 4).toNat = y.val ∧
        w.extractLsb' 0 4 = low

/-- Exactly the words with `w[15:12]` = `op` and `w[7:0]` = `low` decode to `f X` (30_encoding.md R82, format X). -/
def DecodesX (op : BitVec 4) (low : Byte) (f : Reg → Instr) : Prop :=
  ∀ (w : Word) (x : Reg),
    decodeWord w = .ok (f x) ↔
      w.extractLsb' 12 4 = op ∧ (w.extractLsb' 8 4).toNat = x.val ∧ w.extractLsb' 0 8 = low

/-- The instruction completes: V[x] takes the value `n`, `pc` is `pc0 + 2`, every other register and every other part of the
state, VF and all of memory among them, is unchanged. -/
def WritesReg (i : Instr) (s : State) (x : Reg) (n : Nat) : Prop :=
  ∃ t, exec i s = .next t ∧ (t.reg x).toNat = n ∧ (∀ r, r ≠ x → t.reg r = s.reg r) ∧ t.pc = s.pc + 2 ∧
    UnchangedExcept [.regs, .pc] s t

/-- The instruction completes: V[x] takes the value `n`, VF is 1 if `c` holds and 0 if not, `pc` is `pc0 + 2`, everything else is
unchanged. -/
def WritesRegAndFlag (i : Instr) (s : State) (x : Reg) (n : Nat) (c : Prop) : Prop :=
  ∃ t, exec i s = .next t ∧ (t.reg x).toNat = n ∧ (c → t.reg regF = 1) ∧ (¬c → t.reg regF = 0) ∧
    (∀ r, r ≠ x → r ≠ regF → t.reg r = s.reg r) ∧ t.pc = s.pc + 2 ∧ UnchangedExcept [.regs, .pc] s t

/-- The instruction completes and skips exactly if `c` holds: `pc` is `pc0 + 4` or `pc0 + 2`, nothing else changes. -/
def SkipsIff (i : Instr) (s : State) (c : Prop) : Prop :=
  ∃ t, exec i s = .next t ∧ (c → t.pc = s.pc + 4) ∧ (¬c → t.pc = s.pc + 2) ∧ UnchangedExcept [.pc] s t

/-- The instruction completes: `I` takes the value `n`, `pc` is `pc0 + 2`, nothing else changes. -/
def WritesIndex (i : Instr) (s : State) (n : Nat) : Prop :=
  ∃ t, exec i s = .next t ∧ t.I.toNat = n ∧ t.pc = s.pc + 2 ∧ UnchangedExcept [.index, .pc] s t

/-- The sprite of `n` rows at `I`, drawn at `(V[x], V[y])`, has a set bit on pixel `(px, py)` (43_display.md R162): sprite row `row`,
column `col`, most significant bit first, wrapped at both edges. -/
def SpriteCovers (s : State) (x y : Reg) (n : Nat) (px : Fin 64) (py : Fin 32) : Prop :=
  ∃ row col : Nat, row < n ∧ col < 8 ∧ (s.memRead (s.I.toNat + row)).getLsbD (7 - col) = true ∧
    px.val = ((s.reg x).toNat + col) % 64 ∧ py.val = ((s.reg y).toNat + row) % 32

/-- The fetch of `t` sees a store of `len` bytes at `I` of `s`, byte `k` being `stored k`: each of the two fetched bytes, at `pc0 + 2`
and `pc0 + 3`, is the byte stored there if the store covers it and the old byte if not (20_memory.md R55, R64). -/
def NextFetchSees (s t : State) (len : Nat) (stored : Nat → Nat) : Prop :=
  ∃ w, t.fetchWord = some w ∧
    (∀ k, k < len → s.I.toNat + k = s.pc.toNat + 2 → (w.extractLsb' 8 8).toNat = stored k) ∧
    (∀ k, k < len → s.I.toNat + k = s.pc.toNat + 3 → (w.extractLsb' 0 8).toNat = stored k) ∧
    (¬(s.I.toNat ≤ s.pc.toNat + 2 ∧ s.pc.toNat + 2 < s.I.toNat + len) → w.extractLsb' 8 8 = s.memRead (s.pc.toNat + 2)) ∧
    (¬(s.I.toNat ≤ s.pc.toNat + 3 ∧ s.pc.toNat + 3 < s.I.toNat + len) → w.extractLsb' 0 8 = s.memRead (s.pc.toNat + 3))

end Sys2Proof.Claims

open Sys2Proof Sys2Proof.Machine Sys2Proof.Claims

/-! ### Encoding (30_encoding.md) -/

/-- Decoding the bytes of any instruction, whatever follows them, gives that instruction with every operand, and hands back what
follows (30_encoding.md sections 2 to 4). -/
def Obligations.DecodeEncodeRoundTrip : Prop :=
  ∀ (i : Instr) (rest : List Byte), decode (encodeBytes i ++ rest) = .ok (i, rest)

/-- A word that decodes is the encoding of what it decodes to, so no bit of a defined word is ignored, `Y` of 8XY6 and 8XYE included
(30_encoding.md sections 2 to 5).  R88 says that the value of that `Y` is ignored; that `Instr` keeps it, so that the word can be
recovered, is the model's choice (log entry 23). -/
def Obligations.EncodeDecodeRoundTrip : Prop :=
  ∀ (w : Word) (i : Instr), decodeWord w = .ok i → encode i = w

/-- The nibble dispatch of the decoder (R84) and the mask and match table (R85) define the same words, and every other word is
rejected by name, with the word (30_encoding.md sections 3 to 5).  That the patterns are exact, so that every other word is unknown, is
the spec's decision D10 (log entry 12). -/
def Obligations.DecoderMatchesOpcodeMap : Prop :=
  ∀ w : Word, (wordWellFormed w = true ↔ ∃ i, decodeWord w = .ok i) ∧
    (wordWellFormed w = false ↔ decodeWord w = .error (.unknownInstruction w))

/-- "No two patterns overlap, so the order of the tests does not matter" (30_encoding.md section 3). -/
def Obligations.OpcodeRowsDisjoint : Prop :=
  ∀ r ∈ opcodeRows, ∀ r' ∈ opcodeRows, ∀ w : Word, r.selects w = true → r'.selects w = true → r = r'

/-- The four encodings the source writes out (30_encoding.md R91): 6005, 600A, F029, D005, as the bytes they are stored as. -/
def Obligations.WorkedEncodingsDecode : Prop :=
  decode [0x60, 0x05] = .ok (.ldImm 0 0x05, []) ∧ encode (.ldImm 0 0x05) = 0x6005 ∧
  decode [0x60, 0x0A] = .ok (.ldImm 0 0x0A, []) ∧ encode (.ldImm 0 0x0A) = 0x600A ∧
  decode [0xF0, 0x29] = .ok (.ldF 0, []) ∧ encode (.ldF 0) = 0xF029 ∧
  decode [0xD0, 0x05] = .ok (.drw 0 0 5, []) ∧ encode (.drw 0 0 5) = 0xD005

/-! ### Fetch and step (00_scope.md, 20_memory.md) -/

/-- The fetched word has the byte at `pc0` in bits 15 to 8 and the byte at `pc0 + 1` in bits 7 to 0 (20_memory.md R55). -/
def Obligations.FetchIsBigEndian : Prop :=
  ∀ s : State, s.pc.toNat + 1 ≤ 4095 →
    ∃ w : Word, s.fetchWord = some w ∧ w.extractLsb' 8 8 = s.memRead s.pc.toNat ∧
      w.extractLsb' 0 8 = s.memRead (s.pc.toNat + 1)

/-- On a core that is not stopped, the `Cycle` fails at the fetch exactly when `pc0 + 1 > 4095`, compared as natural numbers
(20_memory.md section 3; the spec's reading D1 of the source's sentence, log entry 10; what the report carries is decision D4, log
entry 29). -/
def Obligations.FetchFailsExactlyOutOfBounds : Prop :=
  ∀ s : State, s.agenda = [] → s.stoppedBy = none →
    (step s = .fault (.fetchOutOfBounds s.pc) ↔ s.pc.toNat + 1 > 4095)

/-- A step performs the host's next operation, a `Cycle` where the agenda is empty.  A `Cycle`, whatever the agenda, on a core that is not
stopped and whose two bytes at `pc` decode to `i`, is `exec i` on the state in which the last report is cleared and the `Load` window
closed; so the step is that `exec` both by an empty agenda and where the agenda asks for a `Cycle` (00_scope.md section 3; agenda, window
and report are the model's, log entries 15, 17 and 28). -/
def Obligations.StepRunsDecoded : Prop :=
  (∀ (s : State) (i : Instr), s.stoppedBy = none → s.pc.toNat + 1 ≤ 4095 →
    decode [s.memRead s.pc.toNat, s.memRead (s.pc.toNat + 1)] = .ok (i, []) →
    perform .cycle s = exec i { s with report := none, fresh := false } ∧
    (s.agenda = [] → step s = exec i { s with report := none, fresh := false }) ∧
    (∀ rest, s.agenda = .cycle :: rest → step s = exec i { s with report := none, fresh := false, agenda := rest })) ∧
  (∀ s : State, s.agenda = [] → step s = perform .cycle s) ∧
  (∀ (s : State) (op : HostOp) (rest : List HostOp), s.agenda = op :: rest →
    step s = perform op { s with agenda := rest })

/-- A word that matches no row of the opcode map, in a `Cycle` whatever the agenda: the report carries `pc0` and the word, `pc` becomes
`pc0 + 2`, nothing else changes, the core is not stopped; and the step is that `Cycle` by an empty agenda and where the agenda asks for
one (60_exceptions.md sections 1 and 2).  That the machine goes on with a report is the spec's decision D3 (log entry 7), code 4 and what
the report carries its decision D4 (log entry 29); the `Load` window closes as with every `Cycle` (log entry 17). -/
def Obligations.UnknownWordReportedAndSkipped : Prop :=
  ∀ s : State, s.stoppedBy = none → s.pc.toNat + 1 ≤ 4095 →
    (∀ r ∈ opcodeRows, r.selects (s.memRead s.pc.toNat ++ s.memRead (s.pc.toNat + 1)) = false) →
    ∃ t, perform .cycle s = .next t ∧
      t.report = some (.unknownInstruction s.pc (s.memRead s.pc.toNat ++ s.memRead (s.pc.toNat + 1))) ∧
      t.report.map Report.code = some 4 ∧ t.pc = s.pc + 2 ∧ t.stoppedBy = none ∧
      UnchangedExcept [.pc, .report, .fresh] s t ∧
      (s.agenda = [] → step s = .next t) ∧
      (∀ rest, s.agenda = .cycle :: rest → step s = .next { t with agenda := rest })

/-- An instruction placed by `withFetchWord` is the one the very next step fetches, in every state: the core is not stopped, the
next operation is a `Cycle`, and the fetch reads exactly the placed word (the model's choice, log entry 21). -/
def Obligations.PlacedWordIsFetchedNext : Prop :=
  ∀ (s : State) (nbits w : Nat),
    (s.withFetchWord nbits w).fetchWord = some (tableWord nbits w) ∧ (s.withFetchWord nbits w).stoppedBy = none ∧
    ((s.withFetchWord nbits w).agenda = [] ∨ ∃ rest, (s.withFetchWord nbits w).agenda = .cycle :: rest)

/-! ### Errors (60_exceptions.md) -/

/-- An instruction ends in a fatal error exactly in the cases of the table of error kinds, and with exactly the report it gives:
`StackOverflow`, `StackUnderflow`, `OutOfBounds` on a data access (60_exceptions.md section 1; that FX33 and DXYN fail like FX55
and FX65, and the address reported, are the spec's decisions D4 to D7, log entry 9; what each report carries is decision D4, log
entry 29). -/
def Obligations.InstructionFaultsExactly : Prop :=
  ∀ (i : Instr) (s : State) (f : Fault), exec i s = .fault f ↔
    (∃ nnn, i = .call nnn ∧ s.SP.val = 48 ∧ f = .stackOverflow s.pc (encode i)) ∨
    (i = .ret ∧ s.SP.val = 0 ∧ f = .stackUnderflow s.pc (encode i)) ∨
    (0 < dataLen i ∧ s.I.toNat + dataLen i - 1 > 4095 ∧ f = .dataOutOfBounds s.pc (encode i) (max s.I.toNat 4096))

/-- Every instruction completes wherever it has no error: 2NNN with a stack that is not full, 00EE with a stack that is not empty, a
data access inside memory, and every other instruction always (60_exceptions.md sections 1 and 2; the range of a data access is decisions
D5 to D7, log entry 9). -/
def Obligations.EveryInstructionCompletes : Prop :=
  ∀ (i : Instr) (s : State), (∀ nnn, i = .call nnn → s.SP.val < 48) → (i = .ret → 0 < s.SP.val) →
    (dataLen i = 0 ∨ s.I.toNat + dataLen i ≤ 4096) → ∃ t, exec i s = .next t

/-- A fatal step changes no state: the host is left with the state as it was, the core stopped with that report, and a further
`Cycle` gives the same report again (60_exceptions.md section 2; the spec's decision D2, log entry 6). -/
def Obligations.FatalErrorStopsUnchanged : Prop :=
  ∀ (s : State) (f : Fault), step s = .fault f →
    UnchangedExcept [.report, .fresh, .agenda] s (hostStep s) ∧ (hostStep s).stoppedBy = some f ∧
      cycle (hostStep s) = .fault f

/-- On a stopped core no operation but `Reset` restarts it: the stop and everything but the keys, the timers and the dirty flag,
which `KeysWrite`, `Tick` and `DirtyAck` still write, stay as they are (60_exceptions.md section 2; decisions D2 and D24, log
entries 6 and 16). -/
def Obligations.OnlyResetRestartsStoppedCore : Prop :=
  ∀ (s : State) (f : Fault), s.StoppedNotFresh → s.stoppedBy = some f → s.agenda.head? ≠ some .reset →
    (hostStep s).stoppedBy = some f ∧ UnchangedExcept [.keys, .delay, .sound, .dirty, .agenda] s (hostStep s)

/-- A stopped core is never in the `Load` window, and every operation, a failing one included, keeps it so (the model's field `fresh`,
log entry 17). -/
def Obligations.HostStepKeepsStoppedNotFresh : Prop :=
  ∀ s : State, s.StoppedNotFresh → (hostStep s).StoppedNotFresh

/-! ### Control transfer (40_control.md) -/

/-- 00EE: pop into `pc`; with an empty stack `StackUnderflow` (40_control.md section 2).  That the report carries `pc0` and the word is the
spec's decision D4 (log entry 29). -/
def Obligations.ReturnPopsOrUnderflows : Prop :=
  (∀ w : Word, decodeWord w = .ok .ret ↔ w = 0x00EE) ∧
  ∀ s : State,
    (s.SP.val = 0 → exec .ret s = .fault (.stackUnderflow s.pc 0x00EE)) ∧
    (∀ k : Fin 48, s.SP.val = k.val + 1 →
      ∃ t, exec .ret s = .next t ∧ t.pc = s.STK[k] ∧ t.SP.val = k.val ∧ UnchangedExcept [.pc, .sp] s t)

/-- 1NNN: `pc <- NNN`, zero-extended, unchecked, nothing else (40_control.md R102). -/
def Obligations.JumpSetsPc : Prop :=
  DecodesNNN 0x1 .jp ∧
  ∀ (nnn : BitVec 12) (s : State),
    ∃ t, exec (.jp nnn) s = .next t ∧ t.pc.toNat = nnn.toNat ∧ UnchangedExcept [.pc] s t

/-- 2NNN: push `pc0 + 2`, then `pc <- NNN`; with a full stack `StackOverflow` (40_control.md section 2).  That the report
carries `pc0` and the word is the spec's decision D4 (log entry 29). -/
def Obligations.CallPushesOrOverflows : Prop :=
  DecodesNNN 0x2 .call ∧
  ∀ (nnn : BitVec 12) (s : State),
    (s.SP.val = 48 → exec (.call nnn) s = .fault (.stackOverflow s.pc (encode (.call nnn)))) ∧
    (∀ k : Fin 48, s.SP.val = k.val →
      ∃ t, exec (.call nnn) s = .next t ∧ t.STK[k] = s.pc + 2 ∧ (∀ j : Fin 48, j ≠ k → t.STK[j] = s.STK[j]) ∧
        t.SP.val = k.val + 1 ∧ t.pc.toNat = nnn.toNat ∧ UnchangedExcept [.pc, .sp, .slots] s t)

/-- 3XNN and 4XNN: skip on equal, skip on different, against an immediate (40_control.md R104, R105). -/
def Obligations.SkipsOnImmediate : Prop :=
  DecodesXNN 0x3 .seImm ∧ DecodesXNN 0x4 .sneImm ∧
  ∀ (x : Reg) (nn : Byte) (s : State),
    SkipsIff (.seImm x nn) s (s.reg x = nn) ∧ SkipsIff (.sneImm x nn) s (s.reg x ≠ nn)

/-- 5XY0 and 9XY0: skip on equal, skip on different, between two registers; with a low nibble other than 0 the word is unknown
(40_control.md section 3).  That the low nibble must be 0, the word being unknown otherwise, is the spec's decision D10 (log entry 12). -/
def Obligations.SkipsOnRegisters : Prop :=
  DecodesXY 0x5 0x0 .seReg ∧ DecodesXY 0x9 0x0 .sneReg ∧
  (∀ w : Word, (w.extractLsb' 12 4 = 0x5 ∨ w.extractLsb' 12 4 = 0x9) → w.extractLsb' 0 4 ≠ 0 →
    decodeWord w = .error (.unknownInstruction w)) ∧
  ∀ (x y : Reg) (s : State),
    SkipsIff (.seReg x y) s (s.reg x = s.reg y) ∧ SkipsIff (.sneReg x y) s (s.reg x ≠ s.reg y)

/-- BNNN: `pc <- V[0] + NNN`, the whole sum, not reduced (40_control.md R108). -/
def Obligations.IndexedJumpAddsV0 : Prop :=
  DecodesNNN 0xB .jpV0 ∧
  ∀ (nnn : BitVec 12) (s : State),
    ∃ t, exec (.jpV0 nnn) s = .next t ∧ t.pc.toNat = (s.reg 0).toNat + nnn.toNat ∧ UnchangedExcept [.pc] s t

/-- A return right after a call, wherever the subroutine starts, resumes at `pc0 + 2` with the registers and the rest of the state as
they were: only dead stack slots can differ (10_state.md section 5, 40_control.md section 2). -/
def Obligations.CallThenReturnResumes : Prop :=
  ∀ (nnn : BitVec 12) (s : State), s.SP.val < 48 →
    ∃ t u, exec (.call nnn) s = .next t ∧ exec .ret t = .next u ∧ u.pc = s.pc + 2 ∧ u.SP = s.SP ∧
      (∀ k : Fin 48, k.val < s.SP.val → u.STK[k] = s.STK[k]) ∧ UnchangedExcept [.pc, .slots] s u

/-! ### Registers and arithmetic (41_alu.md) -/

/-- 6XNN loads, 7XNN adds modulo 256 and writes no flag (41_alu.md R121, R122). -/
def Obligations.LoadAndAddImmediate : Prop :=
  DecodesXNN 0x6 .ldImm ∧ DecodesXNN 0x7 .addImm ∧
  ∀ (x : Reg) (nn : Byte) (s : State),
    WritesReg (.ldImm x nn) s x nn.toNat ∧
    WritesReg (.addImm x nn) s x (((s.reg x).toNat + nn.toNat) % 256)

/-- 8XY0 to 8XY3: move, or, and, exclusive or, none with a flag effect (41_alu.md section 3).  That 8XY1 to 8XY3 leave VF
alone, their rows listing no flag effect, is the spec's decision D23 (log entry 11). -/
def Obligations.MoveAndBitwise : Prop :=
  DecodesXY 0x8 0x0 .ldReg ∧ DecodesXY 0x8 0x1 .orReg ∧ DecodesXY 0x8 0x2 .andReg ∧ DecodesXY 0x8 0x3 .xorReg ∧
  ∀ (x y : Reg) (s : State),
    WritesReg (.ldReg x y) s x (s.reg y).toNat ∧
    WritesReg (.orReg x y) s x ((s.reg x).toNat ||| (s.reg y).toNat) ∧
    WritesReg (.andReg x y) s x ((s.reg x).toNat &&& (s.reg y).toNat) ∧
    WritesReg (.xorReg x y) s x ((s.reg x).toNat ^^^ (s.reg y).toNat)

/-- 8XY4 for `X` other than 0xF: the sum modulo 256, VF the carry (41_alu.md section 4).  That `Y` = 0xF reads the old VF is the spec's
decision D8 (log entry 8). -/
def Obligations.AddWithCarryFlag : Prop :=
  DecodesXY 0x8 0x4 .addReg ∧
  ∀ (x y : Reg) (s : State), x ≠ regF →
    WritesRegAndFlag (.addReg x y) s x (((s.reg x).toNat + (s.reg y).toNat) % 256)
      ((s.reg x).toNat + (s.reg y).toNat > 255)

/-- 8XY5 and 8XY7 for `X` other than 0xF: the difference modulo 256, VF = 1 iff strictly greater (41_alu.md section 4).
That both operands are read before any write, so that `Y` = 0xF uses the old VF, is the spec's decision D8 (log entry 8). -/
def Obligations.SubtractWithStrictFlag : Prop :=
  DecodesXY 0x8 0x5 .sub ∧ DecodesXY 0x8 0x7 .subn ∧
  ∀ (x y : Reg) (s : State), x ≠ regF →
    WritesRegAndFlag (.sub x y) s x ((256 + (s.reg x).toNat - (s.reg y).toNat) % 256)
      ((s.reg x).toNat > (s.reg y).toNat) ∧
    WritesRegAndFlag (.subn x y) s x ((256 + (s.reg y).toNat - (s.reg x).toNat) % 256)
      ((s.reg y).toNat > (s.reg x).toNat)

/-- 8XY6 and 8XYE for `X` other than 0xF: a logical shift of V[X] by one, VF the bit shifted out, `Y` without effect
(41_alu.md section 4, 30_encoding.md section 5; that `Instr` keeps the ignored `Y` is log entry 23). -/
def Obligations.ShiftWithBitOut : Prop :=
  DecodesXY 0x8 0x6 .shr ∧ DecodesXY 0x8 0xE .shl ∧
  ∀ (x y : Reg) (s : State), x ≠ regF →
    WritesRegAndFlag (.shr x y) s x ((s.reg x).toNat / 2) ((s.reg x).toNat % 2 = 1) ∧
    WritesRegAndFlag (.shl x y) s x ((s.reg x).toNat * 2 % 256) ((s.reg x).toNat / 128 = 1)

/-- The five flag instructions with `X` = 0xF, where result and flag go to one register: 8FY4 leaves the carry, the other four leave
the result.  This is the spec's own decision D8, not a statement of the source (41_alu.md section 1, log entry 8). -/
def Obligations.FlagRegisterAsDestination : Prop :=
  ∀ (y : Reg) (s : State),
    (((s.reg regF).toNat + (s.reg y).toNat > 255 → WritesReg (.addReg regF y) s regF 1) ∧
     ((s.reg regF).toNat + (s.reg y).toNat ≤ 255 → WritesReg (.addReg regF y) s regF 0)) ∧
    WritesReg (.sub regF y) s regF ((256 + (s.reg regF).toNat - (s.reg y).toNat) % 256) ∧
    WritesReg (.shr regF y) s regF ((s.reg regF).toNat / 2) ∧
    WritesReg (.subn regF y) s regF ((256 + (s.reg y).toNat - (s.reg regF).toNat) % 256) ∧
    WritesReg (.shl regF y) s regF ((s.reg regF).toNat * 2 % 256)

/-! ### Index pointer and memory transfer (42_index_memory.md) -/

/-- ANNN: `I <- NNN`, zero-extended (42_index_memory.md R141). -/
def Obligations.LoadIndex : Prop :=
  DecodesNNN 0xA .ldI ∧ ∀ (nnn : BitVec 12) (s : State), WritesIndex (.ldI nnn) s nnn.toNat

/-- FX1E: `I <- (I + V[X]) mod 65536`, VF not written (42_index_memory.md section 2).  That VF is left alone, the row listing no
flag effect, is the spec's decision D23 (log entry 11). -/
def Obligations.AddToIndexWraps : Prop :=
  DecodesX 0xF 0x1E .addI ∧
  ∀ (x : Reg) (s : State), WritesIndex (.addI x) s ((s.I.toNat + (s.reg x).toNat) % 65536)

/-- FX29: `I <- V[X] * 5`, all 8 bits of V[X] (42_index_memory.md section 2; no mask is the spec's decision D13, log entry 14). -/
def Obligations.FontAddressIsFiveTimes : Prop :=
  DecodesX 0xF 0x29 .ldF ∧ ∀ (x : Reg) (s : State), WritesIndex (.ldF x) s ((s.reg x).toNat * 5)

/-- FX33: hundreds, tens and units of V[X] at `I`, `I + 1`, `I + 2`, `I` and every register unchanged, every other byte unchanged;
out of range it faults (42_index_memory.md section 3; decisions D5 and D6, log entry 9; `I` unchanged is decision D9, log entry 11; what
the report carries is decision D4, log entry 29). -/
def Obligations.StoreDecimalDigits : Prop :=
  DecodesX 0xF 0x33 .ldB ∧
  ∀ (x : Reg) (s : State),
    (s.I.toNat + 2 ≤ 4095 →
      ∃ t, exec (.ldB x) s = .next t ∧
        (t.memRead s.I.toNat).toNat = (s.reg x).toNat / 100 ∧
        (t.memRead (s.I.toNat + 1)).toNat = (s.reg x).toNat / 10 % 10 ∧
        (t.memRead (s.I.toNat + 2)).toNat = (s.reg x).toNat % 10 ∧
        (∀ a, ¬(s.I.toNat ≤ a ∧ a < s.I.toNat + 3) → t.memRead a = s.memRead a) ∧
        t.pc = s.pc + 2 ∧ UnchangedExcept [.memory, .pc] s t) ∧
    (s.I.toNat + 2 > 4095 →
      exec (.ldB x) s = .fault (.dataOutOfBounds s.pc (encode (.ldB x)) (max s.I.toNat 4096)))

/-- FX55: V[0] to V[X] at `I` to `I + X`, every other byte, every register and `I` unchanged; out of range it faults and stores
nothing (42_index_memory.md section 3; decisions D6 and D9, log entries 9 and 11; what the report carries is decision D4, log entry 29). -/
def Obligations.StoreRegisters : Prop :=
  DecodesX 0xF 0x55 .stRegs ∧
  ∀ (x : Reg) (s : State),
    (s.I.toNat + x.val ≤ 4095 →
      ∃ t, exec (.stRegs x) s = .next t ∧
        (∀ r : Reg, r ≤ x → t.memRead (s.I.toNat + r.val) = s.reg r) ∧
        (∀ a, ¬(s.I.toNat ≤ a ∧ a < s.I.toNat + x.val + 1) → t.memRead a = s.memRead a) ∧
        t.pc = s.pc + 2 ∧ UnchangedExcept [.memory, .pc] s t) ∧
    (s.I.toNat + x.val > 4095 →
      exec (.stRegs x) s = .fault (.dataOutOfBounds s.pc (encode (.stRegs x)) (max s.I.toNat 4096)))

/-- FX65: V[0] to V[X] from `I` to `I + X`, the registers above X, memory and `I` unchanged; out of range it faults and loads
nothing (42_index_memory.md section 3; decisions D6 and D9, log entries 9 and 11; what the report carries is decision D4, log entry 29). -/
def Obligations.LoadRegisters : Prop :=
  DecodesX 0xF 0x65 .ldRegs ∧
  ∀ (x : Reg) (s : State),
    (s.I.toNat + x.val ≤ 4095 →
      ∃ t, exec (.ldRegs x) s = .next t ∧
        (∀ r : Reg, r ≤ x → t.reg r = s.memRead (s.I.toNat + r.val)) ∧
        (∀ r : Reg, x < r → t.reg r = s.reg r) ∧
        t.pc = s.pc + 2 ∧ UnchangedExcept [.regs, .pc] s t) ∧
    (s.I.toNat + x.val > 4095 →
      exec (.ldRegs x) s = .fault (.dataOutOfBounds s.pc (encode (.ldRegs x)) (max s.I.toNat 4096)))

/-- FX55 and then FX65 with the same X, the registers changed in any way in between, gives back V[0] to V[X]
(42_index_memory.md section 3).  It rests on `I` being left alone by FX55, the spec's decision D9 (log entry 11). -/
def Obligations.StoreLoadRoundTrip : Prop :=
  ∀ (x : Reg) (s : State) (bank : Vector Byte 16), s.I.toNat + x.val ≤ 4095 →
    ∃ t u, exec (.stRegs x) s = .next t ∧ exec (.ldRegs x) { t with V := bank } = .next u ∧
      (∀ r : Reg, r ≤ x → u.reg r = s.reg r) ∧ (∀ r : Reg, x < r → u.reg r = bank[r])

/-- A store into the next instruction is what the next fetch reads, no fence needed: of the two bytes at `pc0 + 2` and `pc0 + 3`, each one
that FX55 or FX33 stores is fetched as stored, and each other one as it was; so FX55 with X >= 1 at `I` = `pc0 + 2` makes the next word
V[0] ++ V[1] (20_memory.md section 5). -/
def Obligations.StoreSeenByNextFetch : Prop :=
  (∀ (x : Reg) (s : State), s.I.toNat + x.val ≤ 4095 → s.pc.toNat + 3 ≤ 4095 →
    ∃ t, exec (.stRegs x) s = .next t ∧ NextFetchSees s t (x.val + 1) fun k => (s.reg (Fin.ofNat 16 k)).toNat) ∧
  (∀ (x : Reg) (s : State), s.I.toNat + 2 ≤ 4095 → s.pc.toNat + 3 ≤ 4095 →
    ∃ t, exec (.ldB x) s = .next t ∧ NextFetchSees s t 3 fun k => (s.reg x).toNat / 10 ^ (2 - k) % 10) ∧
  (∀ (x : Reg) (s : State), 1 ≤ x.val → s.I = s.pc + 2 → s.pc.toNat + 2 + x.val ≤ 4095 →
    ∃ t, exec (.stRegs x) s = .next t ∧ t.fetchWord = some (s.reg 0 ++ s.reg 1))

/-! ### Display (43_display.md) -/

/-- 00E0: every pixel 0, `DIRTY` 1, VF and all else unchanged (43_display.md R161). -/
def Obligations.ClearDisplay : Prop :=
  (∀ w : Word, decodeWord w = .ok .cls ↔ w = 0x00E0) ∧
  ∀ s : State, ∃ t, exec .cls s = .next t ∧ (∀ px py, Grid.pixel t.P px py = false) ∧ t.DIRTY = true ∧
    t.pc = s.pc + 2 ∧ UnchangedExcept [.pixels, .dirty, .pc] s t

/-- DXYN, pixel by pixel: exactly the pixels under set sprite bits are inverted, VF is 1 iff one of them was 1, `DIRTY` is set, the
coordinates are those before VF is written; out of range it faults and draws nothing; height 0 never fails (43_display.md
section 3; the fault is the spec's decision D5, log entry 9, and what it carries D4, log entry 29; `DIRTY` set when no pixel is touched is
the resolution C4, log entry 27; `I` unchanged is decision D9, log entry 11). -/
def Obligations.DrawComposesPixelwise : Prop :=
  (∀ (w : Word) (x y : Reg) (n : Fin 16), decodeWord w = .ok (.drw x y n) ↔
    w.extractLsb' 12 4 = 0xD ∧ (w.extractLsb' 8 4).toNat = x.val ∧ (w.extractLsb' 4 4).toNat = y.val ∧
      (w.extractLsb' 0 4).toNat = n.val) ∧
  ∀ (x y : Reg) (n : Fin 16) (s : State),
    (n.val = 0 ∨ s.I.toNat + n.val - 1 ≤ 4095 →
      ∃ t, exec (.drw x y n) s = .next t ∧
        (∀ px py, SpriteCovers s x y n.val px py → Grid.pixel t.P px py = !Grid.pixel s.P px py) ∧
        (∀ px py, ¬SpriteCovers s x y n.val px py → Grid.pixel t.P px py = Grid.pixel s.P px py) ∧
        ((∃ px py, SpriteCovers s x y n.val px py ∧ Grid.pixel s.P px py = true) → t.reg regF = 1) ∧
        ((∀ px py, SpriteCovers s x y n.val px py → Grid.pixel s.P px py = false) → t.reg regF = 0) ∧
        (∀ r, r ≠ regF → t.reg r = s.reg r) ∧ t.DIRTY = true ∧ t.pc = s.pc + 2 ∧
        UnchangedExcept [.regs, .pixels, .dirty, .pc] s t) ∧
    (0 < n.val ∧ s.I.toNat + n.val - 1 > 4095 →
      exec (.drw x y n) s = .fault (.dataOutOfBounds s.pc (encode (.drw x y n)) (max s.I.toNat 4096)))

/-- Drawing the same sprite twice at the same place restores every pixel, and the second draw reports a collision exactly if some
covered pixel was 0 before the first (43_display.md section 3).  `X` and `Y` other than 0xF, since the first draw writes VF; the
form with 0xF is covered pixel by pixel by DrawComposesPixelwise. -/
def Obligations.DrawTwiceRestores : Prop :=
  ∀ (x y : Reg) (n : Fin 16) (s t u : State), x ≠ regF → y ≠ regF →
    exec (.drw x y n) s = .next t → exec (.drw x y n) t = .next u →
    (∀ px py, Grid.pixel u.P px py = Grid.pixel s.P px py) ∧
    (u.reg regF = 1 ↔ ∃ px py, SpriteCovers s x y n.val px py ∧ Grid.pixel s.P px py = false)

/-- The compositor depends on its coordinates only modulo 64 and modulo 32, so an adder's width cannot be observed
(43_display.md section 3). -/
def Obligations.DrawDependsOnWrappedCoordinates : Prop :=
  ∀ (x0 y0 x1 y1 : Nat) (sprite : List Byte) (g : Grid), x0 % 64 = x1 % 64 → y0 % 32 = y1 % 32 →
    compose x0 y0 sprite g = compose x1 y1 sprite g

/-- `DIRTY` is set by every 00E0 and every DXYN, height 0 and all-zero sprites included, and no instruction clears it
(43_display.md section 3, 10_state.md section 6).  That a draw which touches no pixel sets it too is the spec's resolution C4 of two
sentences of the source (log entry 27). -/
def Obligations.DirtySetByEveryDraw : Prop :=
  ∀ (i : Instr) (s t : State), exec i s = .next t →
    ((i = .cls ∨ ∃ x y n, i = .drw x y n) → t.DIRTY = true) ∧
    (¬(i = .cls ∨ ∃ x y n, i = .drw x y n) → t.DIRTY = s.DIRTY)

/-! ### Random, keys, timers (44_timers_keys_random.md) -/

/-- CXNN: V[X] is `NN` and the next random byte, whatever that byte is (a free value, log entry 1); exactly one byte is requested, and
no bit is set where `NN` has a 0 (44_timers_keys_random.md R181). -/
def Obligations.RandomByteMasked : Prop :=
  DecodesXNN 0xC .rnd ∧
  ∀ (x : Reg) (nn : Byte) (s : State),
    ∃ t, exec (.rnd x nn) s = .next t ∧ t.reg x = nn &&& Config.randByte s.draws ∧ t.draws = s.draws + 1 ∧
      (∀ k, nn.getLsbD k = false → (t.reg x).getLsbD k = false) ∧
      (∀ r, r ≠ x → t.reg r = s.reg r) ∧ t.pc = s.pc + 2 ∧ UnchangedExcept [.regs, .draws, .pc] s t

/-- EX9E and EXA1: skip on the level of the key that the low nibble of V[X] names (44_timers_keys_random.md R182, R183). -/
def Obligations.KeySkips : Prop :=
  DecodesX 0xE 0x9E .skp ∧ DecodesX 0xE 0xA1 .sknp ∧
  ∀ (x : Reg) (s : State) (k : Key), k.val = (s.reg x).toNat % 16 →
    SkipsIff (.skp x) s (s.keyDown k = true) ∧ SkipsIff (.sknp x) s (s.keyDown k = false)

/-- FX0A: with no key pressed nothing changes and `pc` stays `pc0`; otherwise the least pressed key goes to V[X]
(44_timers_keys_random.md R185). -/
def Obligations.KeyWait : Prop :=
  DecodesX 0xF 0x0A .ldVxK ∧
  ∀ (x : Reg) (s : State),
    ((∀ k, s.keyDown k = false) → exec (.ldVxK x) s = .next s) ∧
    (∀ k, s.keyDown k = true → (∀ j, j < k → s.keyDown j = false) → WritesReg (.ldVxK x) s x k.val)

/-- FX07, FX15, FX18: V[X] from `DT`, `DT` from V[X], `ST` from V[X] (44_timers_keys_random.md R184, R186, R187). -/
def Obligations.TimerMoves : Prop :=
  DecodesX 0xF 0x07 .ldVxDt ∧ DecodesX 0xF 0x15 .ldDtVx ∧ DecodesX 0xF 0x18 .ldStVx ∧
  ∀ (x : Reg) (s : State),
    WritesReg (.ldVxDt x) s x s.DT.toNat ∧
    (∃ t, exec (.ldDtVx x) s = .next t ∧ t.DT = s.reg x ∧ t.pc = s.pc + 2 ∧ UnchangedExcept [.delay, .pc] s t) ∧
    (∃ t, exec (.ldStVx x) s = .next t ∧ t.ST = s.reg x ∧ t.pc = s.pc + 2 ∧ UnchangedExcept [.sound, .pc] s t)

/-! ### The host's operations (60_exceptions.md, 70_reset_and_hazards.md) -/

/-- `Tick`: both timers minus 1, saturating at 0, nothing else; it cannot fail (60_exceptions.md section 4).  That one `Tick` acts on
both timers is the spec's resolution C7 of two sentences of the source (log entry 30). -/
def Obligations.TickSaturates : Prop :=
  ∀ s : State, ∃ t, perform .tick s = .next t ∧
    (0 < s.DT.toNat → t.DT.toNat = s.DT.toNat - 1) ∧ (s.DT.toNat = 0 → t.DT.toNat = 0) ∧
    (0 < s.ST.toNat → t.ST.toNat = s.ST.toNat - 1) ∧ (s.ST.toNat = 0 → t.ST.toNat = 0) ∧
    UnchangedExcept [.delay, .sound] s t

/-- `KeysWrite(k)`: `K[i] <- k[i]` for all 16 keys, nothing else; and no instruction writes a key (60_exceptions.md R217). -/
def Obligations.KeysWriteOverwritesAll : Prop :=
  (∀ (s : State) (k : Vector Bool 16), ∃ t, perform (.keysWrite k) s = .next t ∧ (∀ i : Key, t.keyDown i = k[i]) ∧
    UnchangedExcept [.keys] s t) ∧
  (∀ (i : Instr) (s t : State), exec i s = .next t → ∀ k : Key, t.keyDown k = s.keyDown k)

/-- `DirtyAck`: `DIRTY <- 0`, the pixels and all else unchanged; and without it `DIRTY` stays 1 through every other operation but a `Reset`,
which constructs the state anew (60_exceptions.md R218). -/
def Obligations.DirtyAckClearsOnlyDirty : Prop :=
  (∀ s : State, ∃ t, perform .dirtyAck s = .next t ∧ t.DIRTY = false ∧ UnchangedExcept [.dirty] s t) ∧
  (∀ (op : HostOp) (s t : State), op ≠ .dirtyAck → op ≠ .reset → perform op s = .next t → s.DIRTY = true → t.DIRTY = true)

/-- `Load(addr, bytes)` before the first `Cycle` and inside memory places the bytes and nothing else; after the first `Cycle` or
outside memory it is refused (70_reset_and_hazards.md section 2; the refusals are the model's, decision D26, log entry 17, that of a `Load`
of no bytes at an address above 4096 included). -/
def Obligations.LoadPlacesBytes : Prop :=
  ∀ (s : State) (addr : Nat) (bytes : List Byte),
    (s.fresh = true → addr + bytes.length ≤ 4096 →
      ∃ t, perform (.load addr bytes) s = .next t ∧
        (∀ (j : Nat) (h : j < bytes.length), t.memRead (addr + j) = bytes[j]) ∧
        (∀ a, ¬(addr ≤ a ∧ a < addr + bytes.length) → t.memRead a = s.memRead a) ∧ UnchangedExcept [.memory] s t) ∧
    (s.fresh = true → addr + bytes.length > 4096 →
      perform (.load addr bytes) s = .refused (.loadOutsideMemory addr bytes.length)) ∧
    (s.fresh = false → perform (.load addr bytes) s = .refused .loadAfterFirstCycle)

/-- `Reset`: memory, registers, display and timers zeroed, stack pointer 0, `pc` 0x200, not stopped (10_state.md section 11,
70_reset_and_hazards.md section 1).  That `I`, the keys and `DIRTY` are 0 is the spec's decision D11 (log entry 3); that the stack
slots are 0 and the RNG's count and the agenda go on is the model's (log entries 4 and 16). -/
def Obligations.ResetValues : Prop :=
  ∀ s : State, ∃ t, perform .reset s = .next t ∧
    (∀ a, t.memRead a = 0) ∧ (∀ r, t.reg r = 0) ∧ (∀ px py, Grid.pixel t.P px py = false) ∧ t.DT = 0 ∧ t.ST = 0 ∧
    t.SP.val = 0 ∧ t.pc = 0x0200 ∧ t.stoppedBy = none ∧
    t.I = 0 ∧ (∀ k, t.keyDown k = false) ∧ t.DIRTY = false ∧ (∀ k : Fin 48, t.STK[k] = 0) ∧
    t.fresh = true ∧ t.draws = s.draws ∧ t.agenda = s.agenda

/-- Booting from any state, a stopped one included: `Reset`, the font at 0x000, the program at 0x200, the keys; then the program's
bytes are in place, `pc` is 0x200 and the host's further operations follow (70_reset_and_hazards.md section 2; the font base is
decision D16, log entry 18; that a `Reset` may come in any state, restarts a stopped core and leaves the agenda alone is decision D24 and
the model's choice, log entry 16; the font's 80 bytes are those of section 2, a shorter font is the model's choice, log entry 18). -/
def Obligations.BootPlacesFontAndProgram : Prop :=
  ∀ (s : State) (font program : List Byte) (keys : Vector Bool 16) (boot rest : List HostOp),
    bootAgenda font program keys = some boot → font.length ≤ 80 → s.agenda = boot ++ rest →
    (hostRun 4 s).pc = 0x0200 ∧ (hostRun 4 s).stoppedBy = none ∧ (hostRun 4 s).agenda = rest ∧
    (∀ (j : Nat) (h : j < font.length), (hostRun 4 s).memRead j = font[j]) ∧
    (∀ (j : Nat) (h : j < program.length), (hostRun 4 s).memRead (0x200 + j) = program[j]) ∧
    (∀ k : Key, (hostRun 4 s).keyDown k = keys[k])

/-! ### The whole machine -/

/-- The access matrix: an instruction that completes changes no register, no part of the state and no byte of memory outside its row
of the table; the bytes stored start at the address `I` of the state before (10_state.md section 12).  That the effects a row lists are
all its effects is the spec's decisions D9 and D23 (log entry 11). -/
def Obligations.AccessMatrix : Prop :=
  ∀ (i : Instr) (s t : State), exec i s = .next t →
    (∀ r, r ∉ destRegs i → t.reg r = s.reg r) ∧
    (∀ a, ¬(s.effAddr 0 ≤ a ∧ a < s.effAddr 0 + storeLen i) → t.memRead a = s.memRead a) ∧
    UnchangedExcept (.regs :: .memory :: destParts i) s t

/-- VF as a side effect: an instruction that leaves VF changed is one of the six flag instructions or names 0xF as its destination, and
DXYN leaves VF at 0 or 1, and so do the other five for `X` other than 0xF (10_state.md section 12).  That no other instruction changes VF is
the spec's decision D23 (log entry 11). -/
def Obligations.FlagSideEffects : Prop :=
  ∀ (i : Instr) (s t : State), exec i s = .next t →
    (t.reg regF ≠ s.reg regF →
      (∃ x y, i = .addReg x y ∨ i = .sub x y ∨ i = .shr x y ∨ i = .subn x y ∨ i = .shl x y ∨ ∃ n, i = .drw x y n) ∨
      (∃ nn, i = .ldImm regF nn ∨ i = .addImm regF nn ∨ i = .rnd regF nn) ∨
      (∃ y, i = .ldReg regF y ∨ i = .orReg regF y ∨ i = .andReg regF y ∨ i = .xorReg regF y) ∨
      i = .ldVxDt regF ∨ i = .ldVxK regF ∨ i = .ldRegs regF) ∧
    (∀ x y, (i = .addReg x y ∨ i = .sub x y ∨ i = .shr x y ∨ i = .subn x y ∨ i = .shl x y) → x ≠ regF →
      t.reg regF = 0 ∨ t.reg regF = 1) ∧
    (∀ x y n, i = .drw x y n → t.reg regF = 0 ∨ t.reg regF = 1)

/-- Every step keeps memory in its canonical form: addresses strictly rising, inside 0..4095, no entry at the unlisted value.
The addresses are those of 20_memory.md sections 1 and 2; the canonical form is the model's representation (log entry 5). -/
def Obligations.StepKeepsMemoryCanonical : Prop :=
  ∀ s t : State, s.MemoryCanonical → step s = .next t → t.MemoryCanonical

/-- Every step keeps `pc <= 0x10FE` and every live return address at most 4096, so `pc` never wraps around 16 bits
(10_state.md section 4). -/
def Obligations.StepKeepsPcBounded : Prop :=
  ∀ s t : State, s.PcBounded → step s = .next t → t.PcBounded

/-- The reset state meets the three invariants: the bound of 10_state.md section 4, and two of the model's own, the canonical form of memory
(log entry 5) and that a stopped core is not in the `Load` window (log entry 17). -/
def Obligations.ResetMeetsInvariants : Prop :=
  State.reset.MemoryCanonical ∧ State.reset.PcBounded ∧ State.reset.StoppedNotFresh

/-- Stack slots at and above `SP` cannot be observed: two states that differ only there make the same step, with the same errors, to
states that again differ only there (10_state.md section 5). -/
def Obligations.DeadStackSlotsUnobservable : Prop :=
  ∀ s t : State, SameLiveStack s t →
    (∀ s', step s = .next s' → ∃ t', step t = .next t' ∧ SameLiveStack s' t') ∧
    (∀ f, step s = .fault f → step t = .fault f) ∧ (∀ r, step s = .refused r → step t = .refused r)

/-- No instruction reads `DIRTY` or `ST`: two states that differ only there run every instruction alike, to states that again differ
only there (10_state.md sections 6 and 8). -/
def Obligations.DirtyAndSoundUnreadable : Prop :=
  ∀ (i : Instr) (s t : State), SameButDirtyAndSound s t →
    (∀ s', exec i s = .next s' → ∃ t', exec i t = .next t' ∧ SameButDirtyAndSound s' t') ∧
    (∀ f, exec i s = .fault f → exec i t = .fault f)

/-- A `Tick` before or after an instruction makes no difference, unless the instruction reads or writes a timer
(60_exceptions.md sections 3 and 4, 00_scope.md section 3). -/
def Obligations.TickCommutesWithOtherInstructions : Prop :=
  ∀ (i : Instr) (s t : State), (∀ x, i ≠ .ldVxDt x ∧ i ≠ .ldDtVx x ∧ i ≠ .ldStVx x) →
    exec i s = .next t → exec i s.tick = .next t.tick

/-- A jump to itself is a fixed point: once the first `Cycle` is past, a step there leaves the whole state unchanged
(70_reset_and_hazards.md section 3; taking it as the end of a run is decision D27, log entry 25). -/
def Obligations.SelfJumpIsFixedPoint : Prop :=
  ∀ s : State, s.atSelfJump → s.agenda = [] → s.report = none → s.fresh = false → step s = .next s
end

