-- ==== Sys2Proof/Laws/Encoding.lean ====
section
/-! SUPPORT. The fields of packed words (30_encoding.md R81, R82): every field reads back what was packed, and every word is its
fields packed. -/

namespace Sys2Proof

theorem toNat_append_eq_add {m n : Nat} (a : BitVec m) (b : BitVec n) : (a ++ b).toNat = a.toNat * 2 ^ n + b.toNat := by
  rw [BitVec.toNat_append, ← Nat.shiftLeft_add_eq_or_of_lt b.isLt, Nat.shiftLeft_eq]

theorem toNat_packNNN (op : BitVec 4) (nnn : BitVec 12) : (packNNN op nnn).toNat = op.toNat * 4096 + nnn.toNat := by
  simp only [packNNN, toNat_append_eq_add, Nat.reducePow]

theorem toNat_packXNN (op : BitVec 4) (x : Reg) (nn : Byte) :
    (packXNN op x nn).toNat = op.toNat * 4096 + x.val * 256 + nn.toNat := by
  have hx : (BitVec.ofFin (w := 4) x).toNat = x.val := rfl
  rw [packXNN, toNat_append_eq_add, toNat_append_eq_add, hx]
  omega

theorem toNat_packXYN (op : BitVec 4) (x y : Reg) (n : BitVec 4) :
    (packXYN op x y n).toNat = op.toNat * 4096 + x.val * 256 + y.val * 16 + n.toNat := by
  have hx : (BitVec.ofFin (w := 4) x).toNat = x.val := rfl
  have hy : (BitVec.ofFin (w := 4) y).toNat = y.val := rfl
  rw [packXYN, toNat_append_eq_add, toNat_append_eq_add, toNat_append_eq_add, hx, hy]
  omega

theorem toNat_fieldOp (w : Word) : (fieldOp w).toNat = w.toNat / 4096 := by
  have := w.isLt
  rw [fieldOp, BitVec.extractLsb'_toNat, Nat.shiftRight_eq_div_pow, Nat.mod_eq_of_lt (by omega)]

theorem val_fieldX (w : Word) : (fieldX w).val = w.toNat / 256 % 16 := by
  change (w.extractLsb' 8 4).toNat = _
  rw [BitVec.extractLsb'_toNat, Nat.shiftRight_eq_div_pow]

theorem val_fieldY (w : Word) : (fieldY w).val = w.toNat / 16 % 16 := by
  change (w.extractLsb' 4 4).toNat = _
  rw [BitVec.extractLsb'_toNat, Nat.shiftRight_eq_div_pow]

theorem val_fieldN (w : Word) : (fieldN w).val = w.toNat % 16 := by
  change (w.extractLsb' 0 4).toNat = _
  rw [BitVec.extractLsb'_toNat, Nat.shiftRight_zero]

theorem toNat_fieldNN (w : Word) : (fieldNN w).toNat = w.toNat % 256 := by
  rw [fieldNN, BitVec.extractLsb'_toNat, Nat.shiftRight_zero]

theorem toNat_fieldNNN (w : Word) : (fieldNNN w).toNat = w.toNat % 4096 := by
  rw [fieldNNN, BitVec.extractLsb'_toNat, Nat.shiftRight_zero]

@[simp] theorem fieldOp_packNNN (op : BitVec 4) (nnn : BitVec 12) : fieldOp (packNNN op nnn) = op := by
  apply BitVec.eq_of_toNat_eq; rw [toNat_fieldOp, toNat_packNNN]; omega

@[simp] theorem fieldNNN_packNNN (op : BitVec 4) (nnn : BitVec 12) : fieldNNN (packNNN op nnn) = nnn := by
  apply BitVec.eq_of_toNat_eq; rw [toNat_fieldNNN, toNat_packNNN]; omega

@[simp] theorem fieldOp_packXNN (op : BitVec 4) (x : Reg) (nn : Byte) : fieldOp (packXNN op x nn) = op := by
  apply BitVec.eq_of_toNat_eq; rw [toNat_fieldOp, toNat_packXNN]; omega

@[simp] theorem fieldX_packXNN (op : BitVec 4) (x : Reg) (nn : Byte) : fieldX (packXNN op x nn) = x := by
  apply Fin.ext; rw [val_fieldX, toNat_packXNN]; omega

@[simp] theorem fieldNN_packXNN (op : BitVec 4) (x : Reg) (nn : Byte) : fieldNN (packXNN op x nn) = nn := by
  apply BitVec.eq_of_toNat_eq; rw [toNat_fieldNN, toNat_packXNN]; omega

@[simp] theorem fieldOp_packXYN (op : BitVec 4) (x y : Reg) (n : BitVec 4) : fieldOp (packXYN op x y n) = op := by
  apply BitVec.eq_of_toNat_eq; rw [toNat_fieldOp, toNat_packXYN]; omega

@[simp] theorem fieldX_packXYN (op : BitVec 4) (x y : Reg) (n : BitVec 4) : fieldX (packXYN op x y n) = x := by
  apply Fin.ext; rw [val_fieldX, toNat_packXYN]; omega

@[simp] theorem fieldY_packXYN (op : BitVec 4) (x y : Reg) (n : BitVec 4) : fieldY (packXYN op x y n) = y := by
  apply Fin.ext; rw [val_fieldY, toNat_packXYN]; omega

@[simp] theorem fieldN_packXYN (op : BitVec 4) (x y : Reg) (n : BitVec 4) : fieldN (packXYN op x y n) = n.toFin := by
  apply Fin.ext
  change _ = n.toNat
  rw [val_fieldN, toNat_packXYN]; omega

/-- Packing the fields of a word in format `NNN` gives the word back. -/
theorem packNNN_fields (w : Word) : packNNN (fieldOp w) (fieldNNN w) = w := by
  apply BitVec.eq_of_toNat_eq; rw [toNat_packNNN, toNat_fieldOp, toNat_fieldNNN]; omega

/-- Packing the fields of a word in format `XNN` gives the word back. -/
theorem packXNN_fields (w : Word) : packXNN (fieldOp w) (fieldX w) (fieldNN w) = w := by
  apply BitVec.eq_of_toNat_eq; rw [toNat_packXNN, toNat_fieldOp, val_fieldX, toNat_fieldNN]; omega

/-- Packing the fields of a word in format `XYN` gives the word back. -/
theorem packXYN_fields (w : Word) : packXYN (fieldOp w) (fieldX w) (fieldY w) (BitVec.ofFin (w := 4) (fieldN w)) = w := by
  apply BitVec.eq_of_toNat_eq
  have hn : (BitVec.ofFin (w := 4) (fieldN w)).toNat = w.toNat % 16 := val_fieldN w
  rw [toNat_packXYN, toNat_fieldOp, val_fieldX, val_fieldY, hn]; omega

/-! ### The two bytes of a word (20_memory.md R55) -/

theorem toNat_highByte (w : Word) : (highByte w).toNat = w.toNat / 256 := by
  have := w.isLt
  rw [highByte, BitVec.extractLsb'_toNat, Nat.shiftRight_eq_div_pow, Nat.mod_eq_of_lt (by omega)]

theorem toNat_lowByte (w : Word) : (lowByte w).toNat = w.toNat % 256 := by
  rw [lowByte, BitVec.extractLsb'_toNat, Nat.shiftRight_zero]

@[simp] theorem highByte_append_lowByte (w : Word) : highByte w ++ lowByte w = w := by
  apply BitVec.eq_of_toNat_eq; rw [toNat_append_eq_add, toNat_highByte, toNat_lowByte]; omega

@[simp] theorem highByte_append (a b : Byte) : highByte (a ++ b) = a := by
  apply BitVec.eq_of_toNat_eq; rw [toNat_highByte, toNat_append_eq_add]; omega

@[simp] theorem lowByte_append (a b : Byte) : lowByte (a ++ b) = b := by
  apply BitVec.eq_of_toNat_eq; rw [toNat_lowByte, toNat_append_eq_add]; omega

/-! ### Masks: they act field by field -/

theorem packNNN_and (op op' : BitVec 4) (nnn nnn' : BitVec 12) :
    packNNN op nnn &&& packNNN op' nnn' = packNNN (op &&& op') (nnn &&& nnn') := by
  exact BitVec.and_append

theorem packXNN_and (op op' : BitVec 4) (x x' : Reg) (nn nn' : Byte) :
    packXNN op x nn &&& packXNN op' x' nn' =
      packXNN (op &&& op') (BitVec.ofFin (w := 4) x &&& BitVec.ofFin x').toFin (nn &&& nn') := by
  exact BitVec.and_append.trans (congrArg (· ++ (nn &&& nn')) BitVec.and_append)

theorem packXYN_and (op op' : BitVec 4) (x x' y y' : Reg) (n n' : BitVec 4) :
    packXYN op x y n &&& packXYN op' x' y' n' =
      packXYN (op &&& op') (BitVec.ofFin (w := 4) x &&& BitVec.ofFin x').toFin
        (BitVec.ofFin (w := 4) y &&& BitVec.ofFin y').toFin (n &&& n') := by
  exact (BitVec.and_append.trans (congrArg (· ++ (n &&& n')) BitVec.and_append)).trans
    (congrArg (fun z => (z ++ _) ++ (n &&& n')) BitVec.and_append)

/-- Mask 0xF000 keeps `OP`. -/
theorem packNNN_and_F000 (op : BitVec 4) (nnn : BitVec 12) : packNNN op nnn &&& 0xF000 = packNNN op 0 := by
  rw [show (0xF000 : Word) = packNNN 0xF 0 from rfl, packNNN_and, show nnn &&& 0 = 0 from BitVec.and_zero]
  congr 1; exact BitVec.and_allOnes

/-- Mask 0xF000 keeps `OP`. -/
theorem packXNN_and_F000 (op : BitVec 4) (x : Reg) (nn : Byte) : packXNN op x nn &&& 0xF000 = packXNN op 0 0 := by
  rw [show (0xF000 : Word) = packXNN 0xF 0 0 from rfl, packXNN_and, show nn &&& 0 = 0 from BitVec.and_zero,
    show op &&& 0xF = op from BitVec.and_allOnes,
    show (BitVec.ofFin (w := 4) x &&& BitVec.ofFin (0 : Reg)) = 0 from BitVec.and_zero]
  rfl

/-- Mask 0xF0FF keeps `OP` and the low byte. -/
theorem packXNN_and_F0FF (op : BitVec 4) (x : Reg) (nn : Byte) : packXNN op x nn &&& 0xF0FF = packXNN op 0 nn := by
  rw [show (0xF0FF : Word) = packXNN 0xF 0 0xFF from rfl, packXNN_and,
    show op &&& 0xF = op from BitVec.and_allOnes, show nn &&& 0xFF = nn from BitVec.and_allOnes,
    show (BitVec.ofFin (w := 4) x &&& BitVec.ofFin (0 : Reg)) = 0 from BitVec.and_zero]
  rfl

/-- Mask 0xF00F keeps `OP` and the low nibble. -/
theorem packXYN_and_F00F (op : BitVec 4) (x y : Reg) (n : BitVec 4) : packXYN op x y n &&& 0xF00F = packXYN op 0 0 n := by
  rw [show (0xF00F : Word) = packXYN 0xF 0 0 0xF from rfl, packXYN_and,
    show op &&& 0xF = op from BitVec.and_allOnes, show n &&& 0xF = n from BitVec.and_allOnes,
    show (BitVec.ofFin (w := 4) x &&& BitVec.ofFin (0 : Reg)) = 0 from BitVec.and_zero,
    show (BitVec.ofFin (w := 4) y &&& BitVec.ofFin (0 : Reg)) = 0 from BitVec.and_zero]
  rfl

/-- Mask 0xF000 keeps `OP`. -/
theorem packXYN_and_F000 (op : BitVec 4) (x y : Reg) (n : BitVec 4) : packXYN op x y n &&& 0xF000 = packXYN op 0 0 0 := by
  rw [show (0xF000 : Word) = packXYN 0xF 0 0 0 from rfl, packXYN_and, show n &&& 0 = 0 from BitVec.and_zero,
    show op &&& 0xF = op from BitVec.and_allOnes,
    show (BitVec.ofFin (w := 4) x &&& BitVec.ofFin (0 : Reg)) = 0 from BitVec.and_zero,
    show (BitVec.ofFin (w := 4) y &&& BitVec.ofFin (0 : Reg)) = 0 from BitVec.and_zero]
  rfl

end Sys2Proof
end

