-- ==== Sys2Proof/Laws/State.lean ====
section
/-! SUPPORT. Beside State: for every update, what each field is after it (true by definition), and what the register and memory
reads give.  No later proof unfolds a record update. -/

namespace Sys2Proof.Machine

variable (s : State)

/-! ### `setReg` -/

@[simp] theorem State.setReg_V (x : Reg) (v : Byte) : (s.setReg x v).V = s.V.set x v := rfl
@[simp] theorem State.setReg_I (x : Reg) (v : Byte) : (s.setReg x v).I = s.I := rfl
@[simp] theorem State.setReg_pc (x : Reg) (v : Byte) : (s.setReg x v).pc = s.pc := rfl
@[simp] theorem State.setReg_STK (x : Reg) (v : Byte) : (s.setReg x v).STK = s.STK := rfl
@[simp] theorem State.setReg_SP (x : Reg) (v : Byte) : (s.setReg x v).SP = s.SP := rfl
@[simp] theorem State.setReg_P (x : Reg) (v : Byte) : (s.setReg x v).P = s.P := rfl
@[simp] theorem State.setReg_DIRTY (x : Reg) (v : Byte) : (s.setReg x v).DIRTY = s.DIRTY := rfl
@[simp] theorem State.setReg_K (x : Reg) (v : Byte) : (s.setReg x v).K = s.K := rfl
@[simp] theorem State.setReg_DT (x : Reg) (v : Byte) : (s.setReg x v).DT = s.DT := rfl
@[simp] theorem State.setReg_ST (x : Reg) (v : Byte) : (s.setReg x v).ST = s.ST := rfl
@[simp] theorem State.setReg_M (x : Reg) (v : Byte) : (s.setReg x v).M = s.M := rfl
@[simp] theorem State.setReg_report (x : Reg) (v : Byte) : (s.setReg x v).report = s.report := rfl
@[simp] theorem State.setReg_fresh (x : Reg) (v : Byte) : (s.setReg x v).fresh = s.fresh := rfl
@[simp] theorem State.setReg_draws (x : Reg) (v : Byte) : (s.setReg x v).draws = s.draws := rfl
@[simp] theorem State.setReg_agenda (x : Reg) (v : Byte) : (s.setReg x v).agenda = s.agenda := rfl
@[simp] theorem State.memRead_setReg (x : Reg) (v : Byte) (a : Nat) : (s.setReg x v).memRead a = s.memRead a := rfl
@[simp] theorem State.keyDown_setReg (x : Reg) (v : Byte) (key : Key) : (s.setReg x v).keyDown key = s.keyDown key := rfl
@[simp] theorem State.effAddr_setReg (x : Reg) (v : Byte) (j : Nat) : (s.setReg x v).effAddr j = s.effAddr j := rfl
@[simp] theorem State.dataInRange_setReg (x : Reg) (v : Byte) (j : Nat) : (s.setReg x v).dataInRange j = s.dataInRange j := rfl
@[simp] theorem State.stoppedBy_setReg (x : Reg) (v : Byte) : (s.setReg x v).stoppedBy = s.stoppedBy := rfl
@[simp] theorem State.fetchWord_setReg (x : Reg) (v : Byte) : (s.setReg x v).fetchWord = s.fetchWord := rfl

/-! ### `setI` -/

@[simp] theorem State.setI_V (v : Word) : (s.setI v).V = s.V := rfl
@[simp] theorem State.setI_I (v : Word) : (s.setI v).I = v := rfl
@[simp] theorem State.setI_pc (v : Word) : (s.setI v).pc = s.pc := rfl
@[simp] theorem State.setI_STK (v : Word) : (s.setI v).STK = s.STK := rfl
@[simp] theorem State.setI_SP (v : Word) : (s.setI v).SP = s.SP := rfl
@[simp] theorem State.setI_P (v : Word) : (s.setI v).P = s.P := rfl
@[simp] theorem State.setI_DIRTY (v : Word) : (s.setI v).DIRTY = s.DIRTY := rfl
@[simp] theorem State.setI_K (v : Word) : (s.setI v).K = s.K := rfl
@[simp] theorem State.setI_DT (v : Word) : (s.setI v).DT = s.DT := rfl
@[simp] theorem State.setI_ST (v : Word) : (s.setI v).ST = s.ST := rfl
@[simp] theorem State.setI_M (v : Word) : (s.setI v).M = s.M := rfl
@[simp] theorem State.setI_report (v : Word) : (s.setI v).report = s.report := rfl
@[simp] theorem State.setI_fresh (v : Word) : (s.setI v).fresh = s.fresh := rfl
@[simp] theorem State.setI_draws (v : Word) : (s.setI v).draws = s.draws := rfl
@[simp] theorem State.setI_agenda (v : Word) : (s.setI v).agenda = s.agenda := rfl
@[simp] theorem State.reg_setI (v : Word) (r : Reg) : (s.setI v).reg r = s.reg r := rfl
@[simp] theorem State.memRead_setI (v : Word) (a : Nat) : (s.setI v).memRead a = s.memRead a := rfl
@[simp] theorem State.keyDown_setI (v : Word) (key : Key) : (s.setI v).keyDown key = s.keyDown key := rfl
@[simp] theorem State.stoppedBy_setI (v : Word) : (s.setI v).stoppedBy = s.stoppedBy := rfl
@[simp] theorem State.fetchWord_setI (v : Word) : (s.setI v).fetchWord = s.fetchWord := rfl

/-! ### `setPc` -/

@[simp] theorem State.setPc_V (v : Word) : (s.setPc v).V = s.V := rfl
@[simp] theorem State.setPc_I (v : Word) : (s.setPc v).I = s.I := rfl
@[simp] theorem State.setPc_pc (v : Word) : (s.setPc v).pc = v := rfl
@[simp] theorem State.setPc_STK (v : Word) : (s.setPc v).STK = s.STK := rfl
@[simp] theorem State.setPc_SP (v : Word) : (s.setPc v).SP = s.SP := rfl
@[simp] theorem State.setPc_P (v : Word) : (s.setPc v).P = s.P := rfl
@[simp] theorem State.setPc_DIRTY (v : Word) : (s.setPc v).DIRTY = s.DIRTY := rfl
@[simp] theorem State.setPc_K (v : Word) : (s.setPc v).K = s.K := rfl
@[simp] theorem State.setPc_DT (v : Word) : (s.setPc v).DT = s.DT := rfl
@[simp] theorem State.setPc_ST (v : Word) : (s.setPc v).ST = s.ST := rfl
@[simp] theorem State.setPc_M (v : Word) : (s.setPc v).M = s.M := rfl
@[simp] theorem State.setPc_report (v : Word) : (s.setPc v).report = s.report := rfl
@[simp] theorem State.setPc_fresh (v : Word) : (s.setPc v).fresh = s.fresh := rfl
@[simp] theorem State.setPc_draws (v : Word) : (s.setPc v).draws = s.draws := rfl
@[simp] theorem State.setPc_agenda (v : Word) : (s.setPc v).agenda = s.agenda := rfl
@[simp] theorem State.reg_setPc (v : Word) (r : Reg) : (s.setPc v).reg r = s.reg r := rfl
@[simp] theorem State.memRead_setPc (v : Word) (a : Nat) : (s.setPc v).memRead a = s.memRead a := rfl
@[simp] theorem State.keyDown_setPc (v : Word) (key : Key) : (s.setPc v).keyDown key = s.keyDown key := rfl
@[simp] theorem State.effAddr_setPc (v : Word) (j : Nat) : (s.setPc v).effAddr j = s.effAddr j := rfl
@[simp] theorem State.dataInRange_setPc (v : Word) (j : Nat) : (s.setPc v).dataInRange j = s.dataInRange j := rfl
@[simp] theorem State.stoppedBy_setPc (v : Word) : (s.setPc v).stoppedBy = s.stoppedBy := rfl

/-! ### `advance` -/

@[simp] theorem State.advance_V : (s.advance).V = s.V := rfl
@[simp] theorem State.advance_I : (s.advance).I = s.I := rfl
@[simp] theorem State.advance_pc : (s.advance).pc = s.pc + 2 := rfl
@[simp] theorem State.advance_STK : (s.advance).STK = s.STK := rfl
@[simp] theorem State.advance_SP : (s.advance).SP = s.SP := rfl
@[simp] theorem State.advance_P : (s.advance).P = s.P := rfl
@[simp] theorem State.advance_DIRTY : (s.advance).DIRTY = s.DIRTY := rfl
@[simp] theorem State.advance_K : (s.advance).K = s.K := rfl
@[simp] theorem State.advance_DT : (s.advance).DT = s.DT := rfl
@[simp] theorem State.advance_ST : (s.advance).ST = s.ST := rfl
@[simp] theorem State.advance_M : (s.advance).M = s.M := rfl
@[simp] theorem State.advance_report : (s.advance).report = s.report := rfl
@[simp] theorem State.advance_fresh : (s.advance).fresh = s.fresh := rfl
@[simp] theorem State.advance_draws : (s.advance).draws = s.draws := rfl
@[simp] theorem State.advance_agenda : (s.advance).agenda = s.agenda := rfl
@[simp] theorem State.reg_advance (r : Reg) : (s.advance).reg r = s.reg r := rfl
@[simp] theorem State.memRead_advance (a : Nat) : (s.advance).memRead a = s.memRead a := rfl
@[simp] theorem State.keyDown_advance (key : Key) : (s.advance).keyDown key = s.keyDown key := rfl
@[simp] theorem State.effAddr_advance (j : Nat) : (s.advance).effAddr j = s.effAddr j := rfl
@[simp] theorem State.dataInRange_advance (j : Nat) : (s.advance).dataInRange j = s.dataInRange j := rfl
@[simp] theorem State.stoppedBy_advance : (s.advance).stoppedBy = s.stoppedBy := rfl

/-! ### `storeAtI` -/

@[simp] theorem State.storeAtI_V (bs : List Byte) : (s.storeAtI bs).V = s.V := rfl
@[simp] theorem State.storeAtI_I (bs : List Byte) : (s.storeAtI bs).I = s.I := rfl
@[simp] theorem State.storeAtI_pc (bs : List Byte) : (s.storeAtI bs).pc = s.pc := rfl
@[simp] theorem State.storeAtI_STK (bs : List Byte) : (s.storeAtI bs).STK = s.STK := rfl
@[simp] theorem State.storeAtI_SP (bs : List Byte) : (s.storeAtI bs).SP = s.SP := rfl
@[simp] theorem State.storeAtI_P (bs : List Byte) : (s.storeAtI bs).P = s.P := rfl
@[simp] theorem State.storeAtI_DIRTY (bs : List Byte) : (s.storeAtI bs).DIRTY = s.DIRTY := rfl
@[simp] theorem State.storeAtI_K (bs : List Byte) : (s.storeAtI bs).K = s.K := rfl
@[simp] theorem State.storeAtI_DT (bs : List Byte) : (s.storeAtI bs).DT = s.DT := rfl
@[simp] theorem State.storeAtI_ST (bs : List Byte) : (s.storeAtI bs).ST = s.ST := rfl
@[simp] theorem State.storeAtI_M (bs : List Byte) : (s.storeAtI bs).M = Memory.writeBytes s.M (s.effAddr 0) bs := rfl
@[simp] theorem State.storeAtI_report (bs : List Byte) : (s.storeAtI bs).report = s.report := rfl
@[simp] theorem State.storeAtI_fresh (bs : List Byte) : (s.storeAtI bs).fresh = s.fresh := rfl
@[simp] theorem State.storeAtI_draws (bs : List Byte) : (s.storeAtI bs).draws = s.draws := rfl
@[simp] theorem State.storeAtI_agenda (bs : List Byte) : (s.storeAtI bs).agenda = s.agenda := rfl
@[simp] theorem State.reg_storeAtI (bs : List Byte) (r : Reg) : (s.storeAtI bs).reg r = s.reg r := rfl
@[simp] theorem State.keyDown_storeAtI (bs : List Byte) (key : Key) : (s.storeAtI bs).keyDown key = s.keyDown key := rfl
@[simp] theorem State.effAddr_storeAtI (bs : List Byte) (j : Nat) : (s.storeAtI bs).effAddr j = s.effAddr j := rfl
@[simp] theorem State.dataInRange_storeAtI (bs : List Byte) (j : Nat) : (s.storeAtI bs).dataInRange j = s.dataInRange j := rfl
@[simp] theorem State.stoppedBy_storeAtI (bs : List Byte) : (s.storeAtI bs).stoppedBy = s.stoppedBy := rfl

/-! ### `drawSprite` -/

@[simp] theorem State.drawSprite_I (x y : Reg) (n : Nat) : (s.drawSprite x y n).I = s.I := rfl
@[simp] theorem State.drawSprite_pc (x y : Reg) (n : Nat) : (s.drawSprite x y n).pc = s.pc := rfl
@[simp] theorem State.drawSprite_STK (x y : Reg) (n : Nat) : (s.drawSprite x y n).STK = s.STK := rfl
@[simp] theorem State.drawSprite_SP (x y : Reg) (n : Nat) : (s.drawSprite x y n).SP = s.SP := rfl
@[simp] theorem State.drawSprite_P (x y : Reg) (n : Nat) : (s.drawSprite x y n).P = (compose (s.reg x).toNat (s.reg y).toNat (s.sprite n) s.P).1 := rfl
@[simp] theorem State.drawSprite_DIRTY (x y : Reg) (n : Nat) : (s.drawSprite x y n).DIRTY = true := rfl
@[simp] theorem State.drawSprite_K (x y : Reg) (n : Nat) : (s.drawSprite x y n).K = s.K := rfl
@[simp] theorem State.drawSprite_DT (x y : Reg) (n : Nat) : (s.drawSprite x y n).DT = s.DT := rfl
@[simp] theorem State.drawSprite_ST (x y : Reg) (n : Nat) : (s.drawSprite x y n).ST = s.ST := rfl
@[simp] theorem State.drawSprite_M (x y : Reg) (n : Nat) : (s.drawSprite x y n).M = s.M := rfl
@[simp] theorem State.drawSprite_report (x y : Reg) (n : Nat) : (s.drawSprite x y n).report = s.report := rfl
@[simp] theorem State.drawSprite_fresh (x y : Reg) (n : Nat) : (s.drawSprite x y n).fresh = s.fresh := rfl
@[simp] theorem State.drawSprite_draws (x y : Reg) (n : Nat) : (s.drawSprite x y n).draws = s.draws := rfl
@[simp] theorem State.drawSprite_agenda (x y : Reg) (n : Nat) : (s.drawSprite x y n).agenda = s.agenda := rfl
@[simp] theorem State.memRead_drawSprite (x y : Reg) (n : Nat) (a : Nat) : (s.drawSprite x y n).memRead a = s.memRead a := rfl
@[simp] theorem State.keyDown_drawSprite (x y : Reg) (n : Nat) (key : Key) : (s.drawSprite x y n).keyDown key = s.keyDown key := rfl
@[simp] theorem State.effAddr_drawSprite (x y : Reg) (n : Nat) (j : Nat) : (s.drawSprite x y n).effAddr j = s.effAddr j := rfl
@[simp] theorem State.dataInRange_drawSprite (x y : Reg) (n : Nat) (j : Nat) : (s.drawSprite x y n).dataInRange j = s.dataInRange j := rfl
@[simp] theorem State.stoppedBy_drawSprite (x y : Reg) (n : Nat) : (s.drawSprite x y n).stoppedBy = s.stoppedBy := rfl
@[simp] theorem State.fetchWord_drawSprite (x y : Reg) (n : Nat) : (s.drawSprite x y n).fetchWord = s.fetchWord := rfl

/-! ### `randByte` -/

@[simp] theorem State.randByte_V : (s.randByte.2).V = s.V := rfl
@[simp] theorem State.randByte_I : (s.randByte.2).I = s.I := rfl
@[simp] theorem State.randByte_pc : (s.randByte.2).pc = s.pc := rfl
@[simp] theorem State.randByte_STK : (s.randByte.2).STK = s.STK := rfl
@[simp] theorem State.randByte_SP : (s.randByte.2).SP = s.SP := rfl
@[simp] theorem State.randByte_P : (s.randByte.2).P = s.P := rfl
@[simp] theorem State.randByte_DIRTY : (s.randByte.2).DIRTY = s.DIRTY := rfl
@[simp] theorem State.randByte_K : (s.randByte.2).K = s.K := rfl
@[simp] theorem State.randByte_DT : (s.randByte.2).DT = s.DT := rfl
@[simp] theorem State.randByte_ST : (s.randByte.2).ST = s.ST := rfl
@[simp] theorem State.randByte_M : (s.randByte.2).M = s.M := rfl
@[simp] theorem State.randByte_report : (s.randByte.2).report = s.report := rfl
@[simp] theorem State.randByte_fresh : (s.randByte.2).fresh = s.fresh := rfl
@[simp] theorem State.randByte_draws : (s.randByte.2).draws = s.draws + 1 := rfl
@[simp] theorem State.randByte_agenda : (s.randByte.2).agenda = s.agenda := rfl
@[simp] theorem State.reg_randByte (r : Reg) : (s.randByte.2).reg r = s.reg r := rfl
@[simp] theorem State.memRead_randByte (a : Nat) : (s.randByte.2).memRead a = s.memRead a := rfl
@[simp] theorem State.keyDown_randByte (key : Key) : (s.randByte.2).keyDown key = s.keyDown key := rfl
@[simp] theorem State.effAddr_randByte (j : Nat) : (s.randByte.2).effAddr j = s.effAddr j := rfl
@[simp] theorem State.dataInRange_randByte (j : Nat) : (s.randByte.2).dataInRange j = s.dataInRange j := rfl
@[simp] theorem State.stoppedBy_randByte : (s.randByte.2).stoppedBy = s.stoppedBy := rfl
@[simp] theorem State.fetchWord_randByte : (s.randByte.2).fetchWord = s.fetchWord := rfl

/-! ### `stopWith` -/

@[simp] theorem State.stopWith_V (f : Fault) : (s.stopWith f).V = s.V := rfl
@[simp] theorem State.stopWith_I (f : Fault) : (s.stopWith f).I = s.I := rfl
@[simp] theorem State.stopWith_pc (f : Fault) : (s.stopWith f).pc = s.pc := rfl
@[simp] theorem State.stopWith_STK (f : Fault) : (s.stopWith f).STK = s.STK := rfl
@[simp] theorem State.stopWith_SP (f : Fault) : (s.stopWith f).SP = s.SP := rfl
@[simp] theorem State.stopWith_P (f : Fault) : (s.stopWith f).P = s.P := rfl
@[simp] theorem State.stopWith_DIRTY (f : Fault) : (s.stopWith f).DIRTY = s.DIRTY := rfl
@[simp] theorem State.stopWith_K (f : Fault) : (s.stopWith f).K = s.K := rfl
@[simp] theorem State.stopWith_DT (f : Fault) : (s.stopWith f).DT = s.DT := rfl
@[simp] theorem State.stopWith_ST (f : Fault) : (s.stopWith f).ST = s.ST := rfl
@[simp] theorem State.stopWith_M (f : Fault) : (s.stopWith f).M = s.M := rfl
@[simp] theorem State.stopWith_report (f : Fault) : (s.stopWith f).report = some (.fatal f) := rfl
@[simp] theorem State.stopWith_fresh (f : Fault) : (s.stopWith f).fresh = false := rfl
@[simp] theorem State.stopWith_draws (f : Fault) : (s.stopWith f).draws = s.draws := rfl
@[simp] theorem State.stopWith_agenda (f : Fault) : (s.stopWith f).agenda = s.agenda := rfl
@[simp] theorem State.reg_stopWith (f : Fault) (r : Reg) : (s.stopWith f).reg r = s.reg r := rfl
@[simp] theorem State.memRead_stopWith (f : Fault) (a : Nat) : (s.stopWith f).memRead a = s.memRead a := rfl
@[simp] theorem State.keyDown_stopWith (f : Fault) (key : Key) : (s.stopWith f).keyDown key = s.keyDown key := rfl
@[simp] theorem State.effAddr_stopWith (f : Fault) (j : Nat) : (s.stopWith f).effAddr j = s.effAddr j := rfl
@[simp] theorem State.dataInRange_stopWith (f : Fault) (j : Nat) : (s.stopWith f).dataInRange j = s.dataInRange j := rfl
@[simp] theorem State.fetchWord_stopWith (f : Fault) : (s.stopWith f).fetchWord = s.fetchWord := rfl

/-! ### `reportUnknown` -/

@[simp] theorem State.reportUnknown_V (w : Word) : (s.reportUnknown w).V = s.V := rfl
@[simp] theorem State.reportUnknown_I (w : Word) : (s.reportUnknown w).I = s.I := rfl
@[simp] theorem State.reportUnknown_pc (w : Word) : (s.reportUnknown w).pc = s.pc + 2 := rfl
@[simp] theorem State.reportUnknown_STK (w : Word) : (s.reportUnknown w).STK = s.STK := rfl
@[simp] theorem State.reportUnknown_SP (w : Word) : (s.reportUnknown w).SP = s.SP := rfl
@[simp] theorem State.reportUnknown_P (w : Word) : (s.reportUnknown w).P = s.P := rfl
@[simp] theorem State.reportUnknown_DIRTY (w : Word) : (s.reportUnknown w).DIRTY = s.DIRTY := rfl
@[simp] theorem State.reportUnknown_K (w : Word) : (s.reportUnknown w).K = s.K := rfl
@[simp] theorem State.reportUnknown_DT (w : Word) : (s.reportUnknown w).DT = s.DT := rfl
@[simp] theorem State.reportUnknown_ST (w : Word) : (s.reportUnknown w).ST = s.ST := rfl
@[simp] theorem State.reportUnknown_M (w : Word) : (s.reportUnknown w).M = s.M := rfl
@[simp] theorem State.reportUnknown_report (w : Word) : (s.reportUnknown w).report = some (.unknownInstruction s.pc w) := rfl
@[simp] theorem State.reportUnknown_fresh (w : Word) : (s.reportUnknown w).fresh = s.fresh := rfl
@[simp] theorem State.reportUnknown_draws (w : Word) : (s.reportUnknown w).draws = s.draws := rfl
@[simp] theorem State.reportUnknown_agenda (w : Word) : (s.reportUnknown w).agenda = s.agenda := rfl
@[simp] theorem State.reg_reportUnknown (w : Word) (r : Reg) : (s.reportUnknown w).reg r = s.reg r := rfl
@[simp] theorem State.memRead_reportUnknown (w : Word) (a : Nat) : (s.reportUnknown w).memRead a = s.memRead a := rfl
@[simp] theorem State.keyDown_reportUnknown (w : Word) (key : Key) : (s.reportUnknown w).keyDown key = s.keyDown key := rfl
@[simp] theorem State.effAddr_reportUnknown (w : Word) (j : Nat) : (s.reportUnknown w).effAddr j = s.effAddr j := rfl
@[simp] theorem State.dataInRange_reportUnknown (w : Word) (j : Nat) : (s.reportUnknown w).dataInRange j = s.dataInRange j := rfl

/-! ### `tick` -/

@[simp] theorem State.tick_V : (s.tick).V = s.V := rfl
@[simp] theorem State.tick_I : (s.tick).I = s.I := rfl
@[simp] theorem State.tick_pc : (s.tick).pc = s.pc := rfl
@[simp] theorem State.tick_STK : (s.tick).STK = s.STK := rfl
@[simp] theorem State.tick_SP : (s.tick).SP = s.SP := rfl
@[simp] theorem State.tick_P : (s.tick).P = s.P := rfl
@[simp] theorem State.tick_DIRTY : (s.tick).DIRTY = s.DIRTY := rfl
@[simp] theorem State.tick_K : (s.tick).K = s.K := rfl
@[simp] theorem State.tick_DT : (s.tick).DT = tickTimer s.DT := rfl
@[simp] theorem State.tick_ST : (s.tick).ST = tickTimer s.ST := rfl
@[simp] theorem State.tick_M : (s.tick).M = s.M := rfl
@[simp] theorem State.tick_report : (s.tick).report = s.report := rfl
@[simp] theorem State.tick_fresh : (s.tick).fresh = s.fresh := rfl
@[simp] theorem State.tick_draws : (s.tick).draws = s.draws := rfl
@[simp] theorem State.tick_agenda : (s.tick).agenda = s.agenda := rfl
@[simp] theorem State.reg_tick (r : Reg) : (s.tick).reg r = s.reg r := rfl
@[simp] theorem State.memRead_tick (a : Nat) : (s.tick).memRead a = s.memRead a := rfl
@[simp] theorem State.keyDown_tick (key : Key) : (s.tick).keyDown key = s.keyDown key := rfl
@[simp] theorem State.effAddr_tick (j : Nat) : (s.tick).effAddr j = s.effAddr j := rfl
@[simp] theorem State.dataInRange_tick (j : Nat) : (s.tick).dataInRange j = s.dataInRange j := rfl
@[simp] theorem State.stoppedBy_tick : (s.tick).stoppedBy = s.stoppedBy := rfl
@[simp] theorem State.fetchWord_tick : (s.tick).fetchWord = s.fetchWord := rfl

/-! ### `keysWrite` -/

@[simp] theorem State.keysWrite_V (k : Vector Bool 16) : (s.keysWrite k).V = s.V := rfl
@[simp] theorem State.keysWrite_I (k : Vector Bool 16) : (s.keysWrite k).I = s.I := rfl
@[simp] theorem State.keysWrite_pc (k : Vector Bool 16) : (s.keysWrite k).pc = s.pc := rfl
@[simp] theorem State.keysWrite_STK (k : Vector Bool 16) : (s.keysWrite k).STK = s.STK := rfl
@[simp] theorem State.keysWrite_SP (k : Vector Bool 16) : (s.keysWrite k).SP = s.SP := rfl
@[simp] theorem State.keysWrite_P (k : Vector Bool 16) : (s.keysWrite k).P = s.P := rfl
@[simp] theorem State.keysWrite_DIRTY (k : Vector Bool 16) : (s.keysWrite k).DIRTY = s.DIRTY := rfl
@[simp] theorem State.keysWrite_K (k : Vector Bool 16) : (s.keysWrite k).K = k := rfl
@[simp] theorem State.keysWrite_DT (k : Vector Bool 16) : (s.keysWrite k).DT = s.DT := rfl
@[simp] theorem State.keysWrite_ST (k : Vector Bool 16) : (s.keysWrite k).ST = s.ST := rfl
@[simp] theorem State.keysWrite_M (k : Vector Bool 16) : (s.keysWrite k).M = s.M := rfl
@[simp] theorem State.keysWrite_report (k : Vector Bool 16) : (s.keysWrite k).report = s.report := rfl
@[simp] theorem State.keysWrite_fresh (k : Vector Bool 16) : (s.keysWrite k).fresh = s.fresh := rfl
@[simp] theorem State.keysWrite_draws (k : Vector Bool 16) : (s.keysWrite k).draws = s.draws := rfl
@[simp] theorem State.keysWrite_agenda (k : Vector Bool 16) : (s.keysWrite k).agenda = s.agenda := rfl
@[simp] theorem State.reg_keysWrite (k : Vector Bool 16) (r : Reg) : (s.keysWrite k).reg r = s.reg r := rfl
@[simp] theorem State.memRead_keysWrite (k : Vector Bool 16) (a : Nat) : (s.keysWrite k).memRead a = s.memRead a := rfl
@[simp] theorem State.effAddr_keysWrite (k : Vector Bool 16) (j : Nat) : (s.keysWrite k).effAddr j = s.effAddr j := rfl
@[simp] theorem State.dataInRange_keysWrite (k : Vector Bool 16) (j : Nat) : (s.keysWrite k).dataInRange j = s.dataInRange j := rfl
@[simp] theorem State.stoppedBy_keysWrite (k : Vector Bool 16) : (s.keysWrite k).stoppedBy = s.stoppedBy := rfl
@[simp] theorem State.fetchWord_keysWrite (k : Vector Bool 16) : (s.keysWrite k).fetchWord = s.fetchWord := rfl

/-! ### `dirtyAck` -/

@[simp] theorem State.dirtyAck_V : (s.dirtyAck).V = s.V := rfl
@[simp] theorem State.dirtyAck_I : (s.dirtyAck).I = s.I := rfl
@[simp] theorem State.dirtyAck_pc : (s.dirtyAck).pc = s.pc := rfl
@[simp] theorem State.dirtyAck_STK : (s.dirtyAck).STK = s.STK := rfl
@[simp] theorem State.dirtyAck_SP : (s.dirtyAck).SP = s.SP := rfl
@[simp] theorem State.dirtyAck_P : (s.dirtyAck).P = s.P := rfl
@[simp] theorem State.dirtyAck_DIRTY : (s.dirtyAck).DIRTY = false := rfl
@[simp] theorem State.dirtyAck_K : (s.dirtyAck).K = s.K := rfl
@[simp] theorem State.dirtyAck_DT : (s.dirtyAck).DT = s.DT := rfl
@[simp] theorem State.dirtyAck_ST : (s.dirtyAck).ST = s.ST := rfl
@[simp] theorem State.dirtyAck_M : (s.dirtyAck).M = s.M := rfl
@[simp] theorem State.dirtyAck_report : (s.dirtyAck).report = s.report := rfl
@[simp] theorem State.dirtyAck_fresh : (s.dirtyAck).fresh = s.fresh := rfl
@[simp] theorem State.dirtyAck_draws : (s.dirtyAck).draws = s.draws := rfl
@[simp] theorem State.dirtyAck_agenda : (s.dirtyAck).agenda = s.agenda := rfl
@[simp] theorem State.reg_dirtyAck (r : Reg) : (s.dirtyAck).reg r = s.reg r := rfl
@[simp] theorem State.memRead_dirtyAck (a : Nat) : (s.dirtyAck).memRead a = s.memRead a := rfl
@[simp] theorem State.keyDown_dirtyAck (key : Key) : (s.dirtyAck).keyDown key = s.keyDown key := rfl
@[simp] theorem State.effAddr_dirtyAck (j : Nat) : (s.dirtyAck).effAddr j = s.effAddr j := rfl
@[simp] theorem State.dataInRange_dirtyAck (j : Nat) : (s.dirtyAck).dataInRange j = s.dataInRange j := rfl
@[simp] theorem State.stoppedBy_dirtyAck : (s.dirtyAck).stoppedBy = s.stoppedBy := rfl
@[simp] theorem State.fetchWord_dirtyAck : (s.dirtyAck).fetchWord = s.fetchWord := rfl

/-! ### `beginCycle` -/

@[simp] theorem State.beginCycle_V : (s.beginCycle).V = s.V := rfl
@[simp] theorem State.beginCycle_I : (s.beginCycle).I = s.I := rfl
@[simp] theorem State.beginCycle_pc : (s.beginCycle).pc = s.pc := rfl
@[simp] theorem State.beginCycle_STK : (s.beginCycle).STK = s.STK := rfl
@[simp] theorem State.beginCycle_SP : (s.beginCycle).SP = s.SP := rfl
@[simp] theorem State.beginCycle_P : (s.beginCycle).P = s.P := rfl
@[simp] theorem State.beginCycle_DIRTY : (s.beginCycle).DIRTY = s.DIRTY := rfl
@[simp] theorem State.beginCycle_K : (s.beginCycle).K = s.K := rfl
@[simp] theorem State.beginCycle_DT : (s.beginCycle).DT = s.DT := rfl
@[simp] theorem State.beginCycle_ST : (s.beginCycle).ST = s.ST := rfl
@[simp] theorem State.beginCycle_M : (s.beginCycle).M = s.M := rfl
@[simp] theorem State.beginCycle_report : (s.beginCycle).report = none := rfl
@[simp] theorem State.beginCycle_fresh : (s.beginCycle).fresh = false := rfl
@[simp] theorem State.beginCycle_draws : (s.beginCycle).draws = s.draws := rfl
@[simp] theorem State.beginCycle_agenda : (s.beginCycle).agenda = s.agenda := rfl
@[simp] theorem State.reg_beginCycle (r : Reg) : (s.beginCycle).reg r = s.reg r := rfl
@[simp] theorem State.memRead_beginCycle (a : Nat) : (s.beginCycle).memRead a = s.memRead a := rfl
@[simp] theorem State.keyDown_beginCycle (key : Key) : (s.beginCycle).keyDown key = s.keyDown key := rfl
@[simp] theorem State.effAddr_beginCycle (j : Nat) : (s.beginCycle).effAddr j = s.effAddr j := rfl
@[simp] theorem State.dataInRange_beginCycle (j : Nat) : (s.beginCycle).dataInRange j = s.dataInRange j := rfl
@[simp] theorem State.fetchWord_beginCycle : (s.beginCycle).fetchWord = s.fetchWord := rfl

/-! ### `popAgenda` -/

@[simp] theorem State.popAgenda_V : (s.popAgenda).V = s.V := rfl
@[simp] theorem State.popAgenda_I : (s.popAgenda).I = s.I := rfl
@[simp] theorem State.popAgenda_pc : (s.popAgenda).pc = s.pc := rfl
@[simp] theorem State.popAgenda_STK : (s.popAgenda).STK = s.STK := rfl
@[simp] theorem State.popAgenda_SP : (s.popAgenda).SP = s.SP := rfl
@[simp] theorem State.popAgenda_P : (s.popAgenda).P = s.P := rfl
@[simp] theorem State.popAgenda_DIRTY : (s.popAgenda).DIRTY = s.DIRTY := rfl
@[simp] theorem State.popAgenda_K : (s.popAgenda).K = s.K := rfl
@[simp] theorem State.popAgenda_DT : (s.popAgenda).DT = s.DT := rfl
@[simp] theorem State.popAgenda_ST : (s.popAgenda).ST = s.ST := rfl
@[simp] theorem State.popAgenda_M : (s.popAgenda).M = s.M := rfl
@[simp] theorem State.popAgenda_report : (s.popAgenda).report = s.report := rfl
@[simp] theorem State.popAgenda_fresh : (s.popAgenda).fresh = s.fresh := rfl
@[simp] theorem State.popAgenda_draws : (s.popAgenda).draws = s.draws := rfl
@[simp] theorem State.popAgenda_agenda : (s.popAgenda).agenda = s.agenda.tail := rfl
@[simp] theorem State.reg_popAgenda (r : Reg) : (s.popAgenda).reg r = s.reg r := rfl
@[simp] theorem State.memRead_popAgenda (a : Nat) : (s.popAgenda).memRead a = s.memRead a := rfl
@[simp] theorem State.keyDown_popAgenda (key : Key) : (s.popAgenda).keyDown key = s.keyDown key := rfl
@[simp] theorem State.effAddr_popAgenda (j : Nat) : (s.popAgenda).effAddr j = s.effAddr j := rfl
@[simp] theorem State.dataInRange_popAgenda (j : Nat) : (s.popAgenda).dataInRange j = s.dataInRange j := rfl
@[simp] theorem State.stoppedBy_popAgenda : (s.popAgenda).stoppedBy = s.stoppedBy := rfl
@[simp] theorem State.fetchWord_popAgenda : (s.popAgenda).fetchWord = s.fetchWord := rfl

/-! ### Register writes as reads -/

@[simp] theorem State.reg_setReg (x : Reg) (v : Byte) (r : Reg) : (s.setReg x v).reg r = if r = x then v else s.reg r := by
  by_cases h : r = x
  · subst h; simp [State.reg, State.setReg]
  · have h' : x.val ≠ r.val := fun e => h (Fin.ext e.symm)
    simp [State.reg, State.setReg, h, h']

@[simp] theorem State.reg_drawSprite (x y : Reg) (n : Nat) (r : Reg) :
    (s.drawSprite x y n).reg r =
      if r = regF then flagByte (compose (s.reg x).toNat (s.reg y).toNat (s.sprite n) s.P).2 else s.reg r :=
  State.reg_setReg s regF _ r

@[simp] theorem State.keyDown_keysWrite (k : Vector Bool 16) (i : Key) : (s.keysWrite k).keyDown i = k[i] := rfl

/-- 8XY4's two writes: with `x` = 0xF the flag remains (41_alu.md R120). -/
@[simp] theorem State.reg_setResultThenFlag (x : Reg) (v : Byte) (c : Bool) (r : Reg) :
    (s.setResultThenFlag x v c).reg r = if r = regF then flagByte c else if r = x then v else s.reg r := by
  simp [State.setResultThenFlag]

/-- The two writes of 8XY5, 8XY6, 8XY7, 8XYE: with `x` = 0xF the result remains (41_alu.md R120). -/
@[simp] theorem State.reg_setFlagThenResult (x : Reg) (v : Byte) (c : Bool) (r : Reg) :
    (s.setFlagThenResult x v c).reg r = if r = x then v else if r = regF then flagByte c else s.reg r := by
  simp [State.setFlagThenResult]

/-! ### `setResultThenFlag`, the fields it does not write -/

@[simp] theorem State.setResultThenFlag_I (x : Reg) (v : Byte) (c : Bool) : (s.setResultThenFlag x v c).I = s.I := rfl
@[simp] theorem State.setResultThenFlag_pc (x : Reg) (v : Byte) (c : Bool) : (s.setResultThenFlag x v c).pc = s.pc := rfl
@[simp] theorem State.setResultThenFlag_STK (x : Reg) (v : Byte) (c : Bool) : (s.setResultThenFlag x v c).STK = s.STK := rfl
@[simp] theorem State.setResultThenFlag_SP (x : Reg) (v : Byte) (c : Bool) : (s.setResultThenFlag x v c).SP = s.SP := rfl
@[simp] theorem State.setResultThenFlag_P (x : Reg) (v : Byte) (c : Bool) : (s.setResultThenFlag x v c).P = s.P := rfl
@[simp] theorem State.setResultThenFlag_DIRTY (x : Reg) (v : Byte) (c : Bool) : (s.setResultThenFlag x v c).DIRTY = s.DIRTY := rfl
@[simp] theorem State.setResultThenFlag_K (x : Reg) (v : Byte) (c : Bool) : (s.setResultThenFlag x v c).K = s.K := rfl
@[simp] theorem State.setResultThenFlag_DT (x : Reg) (v : Byte) (c : Bool) : (s.setResultThenFlag x v c).DT = s.DT := rfl
@[simp] theorem State.setResultThenFlag_ST (x : Reg) (v : Byte) (c : Bool) : (s.setResultThenFlag x v c).ST = s.ST := rfl
@[simp] theorem State.setResultThenFlag_M (x : Reg) (v : Byte) (c : Bool) : (s.setResultThenFlag x v c).M = s.M := rfl
@[simp] theorem State.setResultThenFlag_report (x : Reg) (v : Byte) (c : Bool) : (s.setResultThenFlag x v c).report = s.report := rfl
@[simp] theorem State.setResultThenFlag_fresh (x : Reg) (v : Byte) (c : Bool) : (s.setResultThenFlag x v c).fresh = s.fresh := rfl
@[simp] theorem State.setResultThenFlag_draws (x : Reg) (v : Byte) (c : Bool) : (s.setResultThenFlag x v c).draws = s.draws := rfl
@[simp] theorem State.setResultThenFlag_agenda (x : Reg) (v : Byte) (c : Bool) : (s.setResultThenFlag x v c).agenda = s.agenda := rfl
@[simp] theorem State.memRead_setResultThenFlag (x : Reg) (v : Byte) (c : Bool) (a : Nat) : (s.setResultThenFlag x v c).memRead a = s.memRead a := rfl

/-! ### `setFlagThenResult`, the fields it does not write -/

@[simp] theorem State.setFlagThenResult_I (x : Reg) (v : Byte) (c : Bool) : (s.setFlagThenResult x v c).I = s.I := rfl
@[simp] theorem State.setFlagThenResult_pc (x : Reg) (v : Byte) (c : Bool) : (s.setFlagThenResult x v c).pc = s.pc := rfl
@[simp] theorem State.setFlagThenResult_STK (x : Reg) (v : Byte) (c : Bool) : (s.setFlagThenResult x v c).STK = s.STK := rfl
@[simp] theorem State.setFlagThenResult_SP (x : Reg) (v : Byte) (c : Bool) : (s.setFlagThenResult x v c).SP = s.SP := rfl
@[simp] theorem State.setFlagThenResult_P (x : Reg) (v : Byte) (c : Bool) : (s.setFlagThenResult x v c).P = s.P := rfl
@[simp] theorem State.setFlagThenResult_DIRTY (x : Reg) (v : Byte) (c : Bool) : (s.setFlagThenResult x v c).DIRTY = s.DIRTY := rfl
@[simp] theorem State.setFlagThenResult_K (x : Reg) (v : Byte) (c : Bool) : (s.setFlagThenResult x v c).K = s.K := rfl
@[simp] theorem State.setFlagThenResult_DT (x : Reg) (v : Byte) (c : Bool) : (s.setFlagThenResult x v c).DT = s.DT := rfl
@[simp] theorem State.setFlagThenResult_ST (x : Reg) (v : Byte) (c : Bool) : (s.setFlagThenResult x v c).ST = s.ST := rfl
@[simp] theorem State.setFlagThenResult_M (x : Reg) (v : Byte) (c : Bool) : (s.setFlagThenResult x v c).M = s.M := rfl
@[simp] theorem State.setFlagThenResult_report (x : Reg) (v : Byte) (c : Bool) : (s.setFlagThenResult x v c).report = s.report := rfl
@[simp] theorem State.setFlagThenResult_fresh (x : Reg) (v : Byte) (c : Bool) : (s.setFlagThenResult x v c).fresh = s.fresh := rfl
@[simp] theorem State.setFlagThenResult_draws (x : Reg) (v : Byte) (c : Bool) : (s.setFlagThenResult x v c).draws = s.draws := rfl
@[simp] theorem State.setFlagThenResult_agenda (x : Reg) (v : Byte) (c : Bool) : (s.setFlagThenResult x v c).agenda = s.agenda := rfl
@[simp] theorem State.memRead_setFlagThenResult (x : Reg) (v : Byte) (c : Bool) (a : Nat) : (s.setFlagThenResult x v c).memRead a = s.memRead a := rfl

/-! ### `skipIf` -/

@[simp] theorem State.skipIf_pc (c : Bool) : (s.skipIf c).pc = if c then s.pc + 4 else s.pc + 2 := by cases c <;> rfl
@[simp] theorem State.skipIf_V (c : Bool) : (s.skipIf c).V = s.V := by cases c <;> rfl
@[simp] theorem State.skipIf_I (c : Bool) : (s.skipIf c).I = s.I := by cases c <;> rfl
@[simp] theorem State.skipIf_STK (c : Bool) : (s.skipIf c).STK = s.STK := by cases c <;> rfl
@[simp] theorem State.skipIf_SP (c : Bool) : (s.skipIf c).SP = s.SP := by cases c <;> rfl
@[simp] theorem State.skipIf_P (c : Bool) : (s.skipIf c).P = s.P := by cases c <;> rfl
@[simp] theorem State.skipIf_DIRTY (c : Bool) : (s.skipIf c).DIRTY = s.DIRTY := by cases c <;> rfl
@[simp] theorem State.skipIf_K (c : Bool) : (s.skipIf c).K = s.K := by cases c <;> rfl
@[simp] theorem State.skipIf_DT (c : Bool) : (s.skipIf c).DT = s.DT := by cases c <;> rfl
@[simp] theorem State.skipIf_ST (c : Bool) : (s.skipIf c).ST = s.ST := by cases c <;> rfl
@[simp] theorem State.skipIf_M (c : Bool) : (s.skipIf c).M = s.M := by cases c <;> rfl
@[simp] theorem State.skipIf_report (c : Bool) : (s.skipIf c).report = s.report := by cases c <;> rfl
@[simp] theorem State.skipIf_fresh (c : Bool) : (s.skipIf c).fresh = s.fresh := by cases c <;> rfl
@[simp] theorem State.skipIf_draws (c : Bool) : (s.skipIf c).draws = s.draws := by cases c <;> rfl
@[simp] theorem State.skipIf_agenda (c : Bool) : (s.skipIf c).agenda = s.agenda := by cases c <;> rfl
@[simp] theorem State.reg_skipIf (c : Bool) (r : Reg) : (s.skipIf c).reg r = s.reg r := by cases c <;> rfl
@[simp] theorem State.memRead_skipIf (c : Bool) (a : Nat) : (s.skipIf c).memRead a = s.memRead a := by cases c <;> rfl
@[simp] theorem State.keyDown_skipIf (c : Bool) (k : Key) : (s.skipIf c).keyDown k = s.keyDown k := by cases c <;> rfl

/-! ### `loadRegs`, the loop of FX65 -/

/-- The loop writes registers only. -/
theorem State.loadRegs_eq (n : Nat) : s.loadRegs n = { s with V := (s.loadRegs n).V } := by
  induction n with
  | zero => rfl
  | succ n ih => simp only [State.loadRegs, State.setReg]; rw [ih]

@[simp] theorem State.loadRegs_I (n : Nat) : (s.loadRegs n).I = s.I := by rw [State.loadRegs_eq]
@[simp] theorem State.loadRegs_pc (n : Nat) : (s.loadRegs n).pc = s.pc := by rw [State.loadRegs_eq]
@[simp] theorem State.loadRegs_STK (n : Nat) : (s.loadRegs n).STK = s.STK := by rw [State.loadRegs_eq]
@[simp] theorem State.loadRegs_SP (n : Nat) : (s.loadRegs n).SP = s.SP := by rw [State.loadRegs_eq]
@[simp] theorem State.loadRegs_P (n : Nat) : (s.loadRegs n).P = s.P := by rw [State.loadRegs_eq]
@[simp] theorem State.loadRegs_DIRTY (n : Nat) : (s.loadRegs n).DIRTY = s.DIRTY := by rw [State.loadRegs_eq]
@[simp] theorem State.loadRegs_K (n : Nat) : (s.loadRegs n).K = s.K := by rw [State.loadRegs_eq]
@[simp] theorem State.loadRegs_DT (n : Nat) : (s.loadRegs n).DT = s.DT := by rw [State.loadRegs_eq]
@[simp] theorem State.loadRegs_ST (n : Nat) : (s.loadRegs n).ST = s.ST := by rw [State.loadRegs_eq]
@[simp] theorem State.loadRegs_M (n : Nat) : (s.loadRegs n).M = s.M := by rw [State.loadRegs_eq]
@[simp] theorem State.loadRegs_report (n : Nat) : (s.loadRegs n).report = s.report := by rw [State.loadRegs_eq]
@[simp] theorem State.loadRegs_fresh (n : Nat) : (s.loadRegs n).fresh = s.fresh := by rw [State.loadRegs_eq]
@[simp] theorem State.loadRegs_draws (n : Nat) : (s.loadRegs n).draws = s.draws := by rw [State.loadRegs_eq]
@[simp] theorem State.loadRegs_agenda (n : Nat) : (s.loadRegs n).agenda = s.agenda := by rw [State.loadRegs_eq]
@[simp] theorem State.memRead_loadRegs (n a : Nat) : (s.loadRegs n).memRead a = s.memRead a := by rw [State.loadRegs_eq]; rfl
@[simp] theorem State.keyDown_loadRegs (n : Nat) (key : Key) : (s.loadRegs n).keyDown key = s.keyDown key := by rw [State.loadRegs_eq]; rfl

/-- After `n` passes exactly the registers below `n` are loaded (42_index_memory.md R146). -/
@[simp] theorem State.reg_loadRegs (n : Nat) (hn : n ≤ 16) (r : Reg) :
    (s.loadRegs n).reg r = if r.val < n then s.memRead (s.effAddr r.val) else s.reg r := by
  induction n with
  | zero => simp [State.loadRegs]
  | succ n ih =>
    have hv : (Fin.ofNat 16 n).val = n := Nat.mod_eq_of_lt (by omega)
    by_cases h : r = Fin.ofNat 16 n
    · have hr : r.val = n := by rw [h, hv]
      rw [State.loadRegs, State.reg_setReg, if_pos h, if_pos (by omega), hr]
    · have hr : r.val ≠ n := fun e => h (Fin.ext (e.trans hv.symm))
      rw [State.loadRegs, State.reg_setReg, if_neg h, ih (by omega)]
      by_cases h' : r.val < n
      · rw [if_pos h', if_pos (by omega)]
      · rw [if_neg h', if_neg (by omega)]

end Sys2Proof.Machine
end

