-- ==== Sys2Proof/Laws/Memory.lean ====
section
/-! SUPPORT. The laws of memory: a read after a write, over all addresses, and that every memory operation keeps the canonical form
(20_memory.md R53). -/

namespace Sys2Proof.Machine

theorem Memory.read_erase (m : Memory) (a k : Nat) :
    Memory.read (Memory.erase a m) k = if k = a then Memory.unlisted else Memory.read m k := by
  induction m with
  | nil => simp [Memory.erase, Memory.read]
  | cons c m ih =>
    obtain ⟨j, b⟩ := c
    simp only [Memory.erase]
    split
    · next h =>
      subst h
      by_cases hk : k = j
      · rw [ih, hk]; simp
      · simp [ih, Memory.read, hk, Ne.symm hk]
    · next h =>
      by_cases hk : j = k
      · subst hk; simp [Memory.read, h]
      · simp [Memory.read, hk, ih]

theorem Memory.read_insert (m : Memory) (a : Nat) (v : Byte) (k : Nat) :
    k ≠ a → Memory.read (Memory.insert a v m) k = Memory.read m k := by
  intro hk
  induction m with
  | nil => simp [Memory.insert, Memory.read, Ne.symm hk]
  | cons c m ih =>
    obtain ⟨j, b⟩ := c
    simp only [Memory.insert]
    split
    · simp [Memory.read, Ne.symm hk]
    · simp [Memory.read, ih]

theorem Memory.read_insert_self (m : Memory) (a : Nat) (v : Byte) (h : ∀ c ∈ m, c.1 ≠ a) :
    Memory.read (Memory.insert a v m) a = v := by
  induction m with
  | nil => simp [Memory.insert, Memory.read]
  | cons c m ih =>
    obtain ⟨j, b⟩ := c
    have hj : j ≠ a := h (j, b) (by simp)
    simp only [Memory.insert]
    split
    · simp [Memory.read]
    · simp [Memory.read, hj, ih fun c hc => h c (by simp [hc])]

theorem Memory.erase_avoids (m : Memory) (a : Nat) : ∀ c ∈ Memory.erase a m, c.1 ≠ a := by
  induction m with
  | nil => simp [Memory.erase]
  | cons c m ih =>
    obtain ⟨j, b⟩ := c
    simp only [Memory.erase]
    split
    · exact ih
    · next h => simp only [List.mem_cons, forall_eq_or_imp]; exact ⟨h, ih⟩

/-- A read after a write gives the byte written at that address and leaves every other address alone (20_memory.md R53). -/
@[simp] theorem Memory.read_write (m : Memory) (a : Nat) (v : Byte) (k : Nat) :
    Memory.read (Memory.write m a v) k = if k = a then v else Memory.read m k := by
  unfold Memory.write
  split
  · next h => rw [Memory.read_erase, h]
  · by_cases hk : k = a
    · subst hk; simp [Memory.read_insert_self _ _ _ (Memory.erase_avoids m k)]
    · simp [Memory.read_insert _ _ _ _ hk, Memory.read_erase, hk]

/-- A read after writing a run of bytes (20_memory.md R59). -/
theorem Memory.read_writeBytes (m : Memory) (a : Nat) (bs : List Byte) (k : Nat) :
    Memory.read (Memory.writeBytes m a bs) k =
      if h : a ≤ k ∧ k < a + bs.length then bs[k - a]'(by omega) else Memory.read m k := by
  induction bs generalizing m a with
  | nil => simp [Memory.writeBytes]
  | cons b bs ih =>
    simp only [Memory.writeBytes, ih, Memory.read_write, List.length_cons]
    by_cases hk : k = a
    · subst hk; simp
    · by_cases h : a + 1 ≤ k ∧ k < a + 1 + bs.length
      · have h' : a ≤ k ∧ k < a + (bs.length + 1) := by omega
        have e : k - a = (k - (a + 1)) + 1 := by omega
        simp [h, h', e]
      · rw [dif_neg h, if_neg hk, dif_neg (by omega)]

/-- Writing a run of bytes leaves every address outside the run alone. -/
theorem Memory.read_writeBytes_outside (m : Memory) (a : Nat) (bs : List Byte) (k : Nat)
    (h : ¬ (a ≤ k ∧ k < a + bs.length)) : Memory.read (Memory.writeBytes m a bs) k = Memory.read m k := by
  rw [Memory.read_writeBytes, dif_neg h]

/-- Writing a run of bytes puts the `j`-th byte at `a + j`. -/
theorem Memory.read_writeBytes_inside (m : Memory) (a : Nat) (bs : List Byte) (j : Nat) (h : j < bs.length) :
    Memory.read (Memory.writeBytes m a bs) (a + j) = bs[j] := by
  rw [Memory.read_writeBytes, dif_pos (by omega)]
  simp

@[simp] theorem Memory.length_readBytes (m : Memory) (a n : Nat) : (Memory.readBytes m a n).length = n := by
  simp [Memory.readBytes]

@[simp] theorem Memory.getElem_readBytes (m : Memory) (a n j : Nat) (h : j < (Memory.readBytes m a n).length) :
    (Memory.readBytes m a n)[j] = Memory.read m (a + j) := by
  simp [Memory.readBytes]

/-! ### The canonical form -/

theorem Memory.wfFrom_mono (lo lo' : Nat) (m : Memory) (h : lo' ≤ lo) (hm : Memory.wfFrom lo m = true) :
    Memory.wfFrom lo' m = true := by
  cases m with
  | nil => rfl
  | cons c m =>
    obtain ⟨k, b⟩ := c
    simp only [Memory.wfFrom, Bool.and_eq_true, decide_eq_true_eq] at hm ⊢
    exact ⟨⟨⟨by omega, hm.1.1.2⟩, hm.1.2⟩, hm.2⟩

theorem Memory.wfFrom_erase (lo a : Nat) (m : Memory) (hm : Memory.wfFrom lo m = true) :
    Memory.wfFrom lo (Memory.erase a m) = true := by
  induction m generalizing lo with
  | nil => rfl
  | cons c m ih =>
    obtain ⟨k, b⟩ := c
    simp only [Memory.wfFrom, Bool.and_eq_true, decide_eq_true_eq] at hm
    simp only [Memory.erase]
    split
    · exact Memory.wfFrom_mono _ _ _ (by omega) (ih (k + 1) hm.2)
    · simp only [Memory.wfFrom, Bool.and_eq_true, decide_eq_true_eq]
      exact ⟨hm.1, ih _ hm.2⟩

theorem Memory.wfFrom_insert (lo a : Nat) (v : Byte) (m : Memory) (hlo : lo ≤ a) (ha : a < Config.memSize)
    (hv : v ≠ Memory.unlisted) (hfree : ∀ c ∈ m, c.1 ≠ a) (hm : Memory.wfFrom lo m = true) :
    Memory.wfFrom lo (Memory.insert a v m) = true := by
  induction m generalizing lo with
  | nil => simp [Memory.insert, Memory.wfFrom, hlo, ha, hv]
  | cons c m ih =>
    obtain ⟨k, b⟩ := c
    have hk : k ≠ a := hfree (k, b) (by simp)
    simp only [Memory.wfFrom, Bool.and_eq_true, decide_eq_true_eq] at hm
    simp only [Memory.insert]
    split
    · next h =>
      simp only [Memory.wfFrom, Bool.and_eq_true, decide_eq_true_eq]
      exact ⟨⟨⟨hlo, ha⟩, hv⟩, ⟨⟨by omega, hm.1.1.2⟩, hm.1.2⟩, hm.2⟩
    · next h =>
      simp only [Memory.wfFrom, Bool.and_eq_true, decide_eq_true_eq]
      exact ⟨hm.1, ih (k + 1) (by omega) (fun c hc => hfree c (by simp [hc])) hm.2⟩

/-- A write inside memory keeps the canonical form. -/
theorem Memory.wf_write (m : Memory) (a : Nat) (v : Byte) (ha : a < Config.memSize) (hm : Memory.wf m = true) :
    Memory.wf (Memory.write m a v) = true := by
  unfold Memory.write
  split
  · exact Memory.wfFrom_erase 0 a m hm
  · next h =>
    exact Memory.wfFrom_insert 0 a v _ (Nat.zero_le a) ha h (Memory.erase_avoids m a) (Memory.wfFrom_erase 0 a m hm)

/-- Writing a run of bytes inside memory keeps the canonical form. -/
theorem Memory.wf_writeBytes (m : Memory) (a : Nat) (bs : List Byte) (ha : a + bs.length ≤ Config.memSize)
    (hm : Memory.wf m = true) : Memory.wf (Memory.writeBytes m a bs) = true := by
  induction bs generalizing m a with
  | nil => exact hm
  | cons b bs ih =>
    simp only [List.length_cons] at ha
    exact ih _ _ (by omega) (Memory.wf_write m a b (by omega) hm)

theorem Memory.wf_reset : Memory.wf State.reset.M = true := rfl

/-- In canonical memory every address outside 0..4095 reads as an unlisted one. -/
theorem Memory.read_outside (m : Memory) (lo a : Nat) (hm : Memory.wfFrom lo m = true) (ha : Config.memSize ≤ a) :
    Memory.read m a = Memory.unlisted := by
  induction m generalizing lo with
  | nil => rfl
  | cons c m ih =>
    obtain ⟨k, b⟩ := c
    simp only [Memory.wfFrom, Bool.and_eq_true, decide_eq_true_eq] at hm
    have hk : k ≠ a := by have := hm.1.1.2; omega
    simp [Memory.read, hk, ih (k + 1) hm.2]

/-! ### Through the state -/

@[simp] theorem State.memRead_storeAtI (s : State) (bs : List Byte) (k : Nat) :
    (s.storeAtI bs).memRead k =
      if h : s.effAddr 0 ≤ k ∧ k < s.effAddr 0 + bs.length then bs[k - s.effAddr 0]'(by omega) else s.memRead k :=
  Memory.read_writeBytes s.M (s.effAddr 0) bs k

end Sys2Proof.Machine
end

