-- ==== Sys2Proof/Laws/Ops.lean ====
section
/-! SUPPORT. One lemma for each shared operation: everything it can do.  Later proofs cite these and do not unfold the operation. -/

namespace Sys2Proof.Machine

/-! ### Call stack (10_state.md R28) -/

/-- `Push` onto a stack that is not full. -/
theorem State.push_of_lt (s : State) (v : Word) (h : s.SP.val < 48) :
    s.push v = some { s with STK := s.STK.set s.SP.val v h, SP := ⟨s.SP.val + 1, Nat.succ_lt_succ h⟩ } := by
  rw [State.push, dif_pos h]

/-- `Push` onto a full stack. -/
theorem State.push_of_full (s : State) (v : Word) (h : ¬ s.SP.val < 48) : s.push v = none := by
  rw [State.push, dif_neg h]

/-- `Pop` from a stack that is not empty. -/
theorem State.pop_of_pos (s : State) (h : 0 < s.SP.val) :
    s.pop = some (s.STK[s.SP.val - 1]'(by omega), { s with SP := ⟨s.SP.val - 1, by omega⟩ }) := by
  rw [State.pop, dif_pos h]

/-- `Pop` from an empty stack. -/
theorem State.pop_of_empty (s : State) (h : ¬ 0 < s.SP.val) : s.pop = none := by
  rw [State.pop, dif_neg h]

/-! ### Bounds checks (20_memory.md R56, R60) -/

theorem State.dataInRange_iff (s : State) (len : Nat) : s.dataInRange len = true ↔ len = 0 ∨ s.I.toNat + len ≤ 4096 := by
  have hm : Config.memSize = 4096 := rfl
  simp only [State.dataInRange, State.effAddr, Bool.or_eq_true, decide_eq_true_eq, hm]
  omega

/-- The bounds check answers a next state only when the access is in range, and then the body's. -/
theorem State.withData_next (s t : State) (w : Word) (len : Nat) (body : State → State) :
    s.withData w len body = .next t ↔ s.dataInRange len = true ∧ body s = t := by
  unfold State.withData
  split
  · next h => simp [h]
  · next h => simp [h, raise]

/-- The bounds check answers a fault only when the access is out of range, and then exactly the DATA error of R205. -/
theorem State.withData_fault (s : State) (w : Word) (len : Nat) (body : State → State) (f : Fault) :
    s.withData w len body = .fault f ↔ s.dataInRange len = false ∧ f = .dataOutOfBounds s.pc w s.badDataAddr := by
  unfold State.withData
  split
  · next h => simp [h]
  · next h => simp [h, raise, eq_comm]

theorem State.withData_ne_refused (s : State) (w : Word) (len : Nat) (body : State → State) (r : Refusal) :
    s.withData w len body ≠ .refused r := by
  unfold State.withData
  split <;> simp [raise]

theorem State.fetchInRange_iff (s : State) : s.fetchInRange = true ↔ s.pc.toNat ≤ 4094 := by
  simp only [State.fetchInRange, Config.memSize, decide_eq_true_eq]
  omega

/-- The fetch: in range, and the two bytes at `pc`, high byte first (20_memory.md R55, R56). -/
theorem State.fetchWord_some (s : State) (w : Word) :
    s.fetchWord = some w ↔ s.pc.toNat ≤ 4094 ∧ w = s.memRead s.pc.toNat ++ s.memRead (s.pc.toNat + 1) := by
  unfold State.fetchWord
  split
  · next h => simp [(State.fetchInRange_iff s).mp h, eq_comm]
  · next h => simp [mt (State.fetchInRange_iff s).mpr h]

theorem State.fetchWord_none (s : State) : s.fetchWord = none ↔ 4094 < s.pc.toNat := by
  unfold State.fetchWord
  split
  · next h => simp [(State.fetchInRange_iff s).mp h]
  · next h => simpa using mt (State.fetchInRange_iff s).mpr h

/-! ### Operands and flags -/

/-- The key that a register names is its value modulo 16 (44_timers_keys_random.md R182). -/
theorem State.val_keyOf (s : State) (x : Reg) : (s.keyOf x).val = (s.reg x).toNat % 16 := by
  change ((s.reg x).extractLsb' 0 4).toNat = _
  rw [BitVec.extractLsb'_toNat, Nat.shiftRight_zero]

@[simp] theorem toNat_addressOperand (nnn : BitVec 12) : (addressOperand nnn).toNat = nnn.toNat := by
  have := nnn.isLt
  rw [addressOperand, BitVec.toNat_setWidth, Nat.mod_eq_of_lt (by omega)]

@[simp] theorem State.toNat_wideReg (s : State) (x : Reg) : (s.wideReg x).toNat = (s.reg x).toNat := by
  have := (s.reg x).isLt
  rw [State.wideReg, BitVec.toNat_setWidth, Nat.mod_eq_of_lt (by omega)]

@[simp] theorem flagByte_true : flagByte true = 1 := rfl
@[simp] theorem flagByte_false : flagByte false = 0 := rfl

theorem flagByte_eq_one (c : Bool) : flagByte c = 1 ↔ c = true := by cases c <;> decide
theorem flagByte_eq_zero (c : Bool) : flagByte c = 0 ↔ c = false := by cases c <;> decide

/-- The ascending scan finds the least pressed key (44_timers_keys_random.md R185). -/
theorem State.firstKey_some (s : State) (k : Key) :
    s.firstKey = some k ↔ s.keyDown k = true ∧ ∀ j : Key, j < k → s.keyDown j = false := by
  unfold State.firstKey
  rw [List.find?_eq_some_iff_getElem]
  constructor
  · rintro ⟨hk, i, hi, he, hbefore⟩
    refine ⟨hk, fun j hj => ?_⟩
    have hik : i = k.val := by rw [← he]; simp
    have := hbefore j.val (by rw [hik]; exact hj)
    simpa using this
  · rintro ⟨hk, hbefore⟩
    refine ⟨hk, k.val, by simp, by simp, fun j hj => ?_⟩
    have := hbefore ⟨j, Nat.lt_trans hj k.isLt⟩ hj
    simpa using this

/-- The scan finds nothing exactly when no key is pressed (44_timers_keys_random.md R185). -/
theorem State.firstKey_none (s : State) : s.firstKey = none ↔ ∀ k : Key, s.keyDown k = false := by
  simp [State.firstKey, List.find?_eq_none]

/-! ### FX55's bytes -/

theorem State.length_regsUpTo (s : State) (x : Reg) : (s.regsUpTo x).length = x.val + 1 := by
  have := x.isLt
  simp [State.regsUpTo]

theorem State.getElem_regsUpTo (s : State) (x : Reg) (j : Nat) (h : j < (s.regsUpTo x).length) :
    (s.regsUpTo x)[j] = s.reg ⟨j, by rw [State.length_regsUpTo] at h; have := x.isLt; omega⟩ := by
  simp [State.regsUpTo, State.reg]

@[simp] theorem length_decimalDigits (v : Byte) : (decimalDigits v).length = 3 := rfl

/-! ### Timers (60_exceptions.md R214) -/

/-- One tick takes 1 off, saturating at 0. -/
@[simp] theorem toNat_tickTimer (t : Byte) : (tickTimer t).toNat = t.toNat - 1 := by
  unfold tickTimer
  split
  · next h => subst h; rfl
  · next h =>
    have h0 : t.toNat ≠ 0 := fun e => h (BitVec.eq_of_toNat_eq e)
    have := t.isLt
    rw [BitVec.toNat_sub]
    change (2 ^ 8 - 1 + t.toNat) % 2 ^ 8 = _
    omega

end Sys2Proof.Machine
end

