-- ==== Sys2Proof/Laws/Display.lean ====
section
/-! SUPPORT. The pixel grid and the compositor (43_display.md): a flip changes one pixel, and the loop's equations. -/

namespace Sys2Proof.Machine

/-- A flip inverts its own pixel and leaves every other one alone (43_display.md R160). -/
@[simp] theorem Grid.pixel_flip (g : Grid) (x : Fin 64) (y : Fin 32) (x' : Fin 64) (y' : Fin 32) :
    Grid.pixel (Grid.flip g x y) x' y' = if x' = x ∧ y' = y then !Grid.pixel g x y else Grid.pixel g x' y' := by
  unfold Grid.pixel Grid.flip
  by_cases hy : y' = y
  · subst hy
    by_cases hx : x' = x
    · subst hx; simp
    · have h : x.val ≠ x'.val := fun e => hx (Fin.ext e.symm)
      simp [hx, h]
  · have h : y.val ≠ y'.val := fun e => hy (Fin.ext e.symm)
    simp [hy, h]

@[simp] theorem Grid.pixel_blank (x : Fin 64) (y : Fin 32) : Grid.pixel Grid.blank x y = false := by
  simp [Grid.pixel, Grid.blank]

/-- Two grids with the same pixels are the same grid. -/
theorem Grid.ext_pixel (g h : Grid) (e : ∀ x y, Grid.pixel g x y = Grid.pixel h x y) : g = h := by
  apply Vector.ext
  intro y hy
  apply Vector.ext
  intro x hx
  exact e ⟨x, hx⟩ ⟨y, hy⟩

@[simp] theorem val_wrapColumn (x0 col : Nat) : (wrapColumn x0 col).val = (x0 + col) % 64 := rfl

@[simp] theorem val_wrapRow (y0 row : Nat) : (wrapRow y0 row).val = (y0 + row) % 32 := rfl

/-- The eight columns of a sprite row are distinct, as 8 <= 64 (43_display.md R165). -/
theorem wrapColumn_inj (x0 c d : Nat) (hc : c < 8) (hd : d < 8) (h : wrapColumn x0 c = wrapColumn x0 d) : c = d := by
  have := congrArg Fin.val h
  simp only [val_wrapColumn] at this
  omega

/-- The up to fifteen rows of a sprite are distinct, as 15 <= 32 (43_display.md R165). -/
theorem wrapRow_inj (y0 r q : Nat) (hr : r < 15) (hq : q < 15) (h : wrapRow y0 r = wrapRow y0 q) : r = q := by
  have := congrArg Fin.val h
  simp only [val_wrapRow] at this
  omega

@[simp] theorem drawRows_nil (x0 y0 row : Nat) (c : Grid × Bool) : drawRows x0 y0 row [] c = c := rfl

@[simp] theorem drawRows_cons (x0 y0 row : Nat) (b : Byte) (bs : List Byte) (c : Grid × Bool) :
    drawRows x0 y0 row (b :: bs) c = drawRows x0 y0 (row + 1) bs (drawRow x0 (wrapRow y0 row) b c) := rfl

/-- A sprite of height 0 draws nothing and meets nothing (43_display.md R165). -/
@[simp] theorem compose_nil (x0 y0 : Nat) (g : Grid) : compose x0 y0 [] g = (g, false) := rfl

@[simp] theorem State.length_sprite (s : State) (n : Nat) : (s.sprite n).length = n := Memory.length_readBytes _ _ _

@[simp] theorem State.getElem_sprite (s : State) (n j : Nat) (h : j < (s.sprite n).length) :
    (s.sprite n)[j] = s.memRead (s.effAddr j) :=
  Memory.getElem_readBytes s.M (s.effAddr 0) n j h

end Sys2Proof.Machine
end

