-- ==== Sys2Proof/Laws/Exec.lean ====
section
/-! SUPPORT. What each instruction that can fail, or that looks before it acts, answers: one inversion lemma each; and that no
instruction is refused.  Every other arm of `exec` is a next state by definition. -/

namespace Sys2Proof.Machine

/-- 00EE answers a next state only from a stack that is not empty (40_control.md R101). -/
theorem exec_ret_next (s t : State) :
    exec .ret s = .next t ↔
      ∃ h : 0 < s.SP.val, t = ({ s with SP := ⟨s.SP.val - 1, by omega⟩ } : State).setPc (s.STK[s.SP.val - 1]'(by omega)) := by
  simp only [exec, execRet]
  by_cases h : 0 < s.SP.val
  · simp [State.pop_of_pos s h, h, eq_comm]
  · simp [State.pop_of_empty s h, h, raise]

/-- 00EE faults exactly on an empty stack (60_exceptions.md R203). -/
theorem exec_ret_fault (s : State) (f : Fault) : exec .ret s = .fault f ↔ s.SP.val = 0 ∧ f = .stackUnderflow s.pc (encode .ret) := by
  simp only [exec, execRet]
  by_cases h : 0 < s.SP.val
  · simp [State.pop_of_pos s h]; omega
  · simp [State.pop_of_empty s h, raise, eq_comm]; omega

/-- 2NNN answers a next state only onto a stack that is not full (40_control.md R103). -/
theorem exec_call_next (nnn : BitVec 12) (s t : State) :
    exec (.call nnn) s = .next t ↔
      ∃ h : s.SP.val < 48, t = ({ s with STK := s.STK.set s.SP.val (s.pc + 2) h, SP := ⟨s.SP.val + 1, Nat.succ_lt_succ h⟩ } : State).setPc
        (addressOperand nnn) := by
  simp only [exec, execCall]
  by_cases h : s.SP.val < 48
  · simp [State.push_of_lt s _ h, h, eq_comm]
  · simp [State.push_of_full s _ h, h, raise]

/-- 2NNN faults exactly on a full stack (60_exceptions.md R202). -/
theorem exec_call_fault (nnn : BitVec 12) (s : State) (f : Fault) :
    exec (.call nnn) s = .fault f ↔ s.SP.val = 48 ∧ f = .stackOverflow s.pc (encode (.call nnn)) := by
  have := s.SP.isLt
  simp only [exec, execCall]
  by_cases h : s.SP.val < 48
  · simp [State.push_of_lt s _ h]; omega
  · simp [State.push_of_full s _ h, raise, eq_comm]; omega

/-- FX0A with no key pressed changes nothing (44_timers_keys_random.md R185). -/
theorem exec_ldVxK_none (x : Reg) (s : State) (h : s.firstKey = none) : exec (.ldVxK x) s = .next s := by
  simp only [exec, execLdVxK, h]
  rfl

/-- FX0A with `k` the least pressed key (44_timers_keys_random.md R185). -/
theorem exec_ldVxK_some (x : Reg) (s : State) (k : Key) (h : s.firstKey = some k) :
    exec (.ldVxK x) s = .next (s.setReg x (BitVec.ofNat 8 k.val)).advance := by
  simp only [exec, execLdVxK, h]

theorem exec_drw_next (x y : Reg) (n : Fin 16) (s t : State) :
    exec (.drw x y n) s = .next t ↔ s.dataInRange n.val = true ∧ (s.drawSprite x y n.val).advance = t :=
  State.withData_next s t (encode (.drw x y n)) n.val fun u => (u.drawSprite x y n.val).advance

theorem exec_ldB_next (x : Reg) (s t : State) :
    exec (.ldB x) s = .next t ↔ s.dataInRange 3 = true ∧ (s.storeAtI (decimalDigits (s.reg x))).advance = t :=
  State.withData_next s t (encode (.ldB x)) 3 fun u => (u.storeAtI (decimalDigits (u.reg x))).advance

theorem exec_stRegs_next (x : Reg) (s t : State) :
    exec (.stRegs x) s = .next t ↔ s.dataInRange (x.val + 1) = true ∧ (s.storeAtI (s.regsUpTo x)).advance = t :=
  State.withData_next s t (encode (.stRegs x)) (x.val + 1) fun u => (u.storeAtI (u.regsUpTo x)).advance

theorem exec_ldRegs_next (x : Reg) (s t : State) :
    exec (.ldRegs x) s = .next t ↔ s.dataInRange (x.val + 1) = true ∧ (s.loadRegs (x.val + 1)).advance = t :=
  State.withData_next s t (encode (.ldRegs x)) (x.val + 1) fun u => (u.loadRegs (x.val + 1)).advance

/-- No instruction is refused. -/
theorem exec_ne_refused (i : Instr) (s : State) (r : Refusal) : exec i s ≠ .refused r := by
  cases i
  case ret =>
    by_cases h : 0 < s.SP.val
    · simp [exec, execRet, State.pop_of_pos s h]
    · simp [exec, execRet, State.pop_of_empty s h, raise]
  case call nnn =>
    by_cases h : s.SP.val < 48
    · simp [exec, execCall, State.push_of_lt s _ h]
    · simp [exec, execCall, State.push_of_full s _ h, raise]
  case ldVxK x =>
    cases h : s.firstKey with
    | none => simp [exec_ldVxK_none x s h]
    | some k => simp [exec_ldVxK_some x s k h]
  case drw => unfold exec; exact State.withData_ne_refused _ _ _ _ r
  case ldB => unfold exec; exact State.withData_ne_refused _ _ _ _ r
  case stRegs => unfold exec; exact State.withData_ne_refused _ _ _ _ r
  case ldRegs => unfold exec; exact State.withData_ne_refused _ _ _ _ r
  all_goals (intro h; cases h)

end Sys2Proof.Machine
end

