-- ==== Sys2Proof/Laws/PerInstr.lean ====
section
/-! SUPPORT. Facts about every instruction, one lemma per constructor.  Family `RowMatch`: the encoding of an instruction lands in its
own row of the opcode map, under that row's mask (30_encoding.md R85). -/

namespace Sys2Proof.Laws

/-- The row of 30_encoding.md R85 that an instruction is written in. -/
def RowMatch.row : Instr → OpcodeRow
  | .cls => ⟨"CLS", 0xFFFF, 0x00E0⟩
  | .ret => ⟨"RET", 0xFFFF, 0x00EE⟩
  | .jp _ => ⟨"JP", 0xF000, 0x1000⟩
  | .call _ => ⟨"CALL", 0xF000, 0x2000⟩
  | .seImm _ _ => ⟨"SE_IMM", 0xF000, 0x3000⟩
  | .sneImm _ _ => ⟨"SNE_IMM", 0xF000, 0x4000⟩
  | .seReg _ _ => ⟨"SE_REG", 0xF00F, 0x5000⟩
  | .ldImm _ _ => ⟨"LD_IMM", 0xF000, 0x6000⟩
  | .addImm _ _ => ⟨"ADD_IMM", 0xF000, 0x7000⟩
  | .ldReg _ _ => ⟨"LD_REG", 0xF00F, 0x8000⟩
  | .orReg _ _ => ⟨"OR", 0xF00F, 0x8001⟩
  | .andReg _ _ => ⟨"AND", 0xF00F, 0x8002⟩
  | .xorReg _ _ => ⟨"XOR", 0xF00F, 0x8003⟩
  | .addReg _ _ => ⟨"ADD_REG", 0xF00F, 0x8004⟩
  | .sub _ _ => ⟨"SUB", 0xF00F, 0x8005⟩
  | .shr _ _ => ⟨"SHR", 0xF00F, 0x8006⟩
  | .subn _ _ => ⟨"SUBN", 0xF00F, 0x8007⟩
  | .shl _ _ => ⟨"SHL", 0xF00F, 0x800E⟩
  | .sneReg _ _ => ⟨"SNE_REG", 0xF00F, 0x9000⟩
  | .ldI _ => ⟨"LD_I", 0xF000, 0xA000⟩
  | .jpV0 _ => ⟨"JP_V0", 0xF000, 0xB000⟩
  | .rnd _ _ => ⟨"RND", 0xF000, 0xC000⟩
  | .drw _ _ _ => ⟨"DRW", 0xF000, 0xD000⟩
  | .skp _ => ⟨"SKP", 0xF0FF, 0xE09E⟩
  | .sknp _ => ⟨"SKNP", 0xF0FF, 0xE0A1⟩
  | .ldVxDt _ => ⟨"LD_VX_DT", 0xF0FF, 0xF007⟩
  | .ldVxK _ => ⟨"LD_VX_K", 0xF0FF, 0xF00A⟩
  | .ldDtVx _ => ⟨"LD_DT_VX", 0xF0FF, 0xF015⟩
  | .ldStVx _ => ⟨"LD_ST_VX", 0xF0FF, 0xF018⟩
  | .addI _ => ⟨"ADD_I", 0xF0FF, 0xF01E⟩
  | .ldF _ => ⟨"LD_F", 0xF0FF, 0xF029⟩
  | .ldB _ => ⟨"LD_B", 0xF0FF, 0xF033⟩
  | .stRegs _ => ⟨"ST_REGS", 0xF0FF, 0xF055⟩
  | .ldRegs _ => ⟨"LD_REGS", 0xF0FF, 0xF065⟩

/-- The instruction's row stands in the opcode map, and its word selects that row. -/
def RowMatch.Statement (i : Instr) : Prop :=
  RowMatch.row i ∈ opcodeRows ∧ encode i &&& (RowMatch.row i).mask = (RowMatch.row i).pattern

theorem RowMatch.cls : RowMatch.Statement .cls := ⟨List.mem_of_getElem? (i := 0) rfl, by decide⟩
theorem RowMatch.ret : RowMatch.Statement .ret := ⟨List.mem_of_getElem? (i := 1) rfl, by decide⟩
theorem RowMatch.jp (nnn : BitVec 12) : RowMatch.Statement (.jp nnn) := ⟨List.mem_of_getElem? (i := 2) rfl, packNNN_and_F000 _ _⟩
theorem RowMatch.call (nnn : BitVec 12) : RowMatch.Statement (.call nnn) := ⟨List.mem_of_getElem? (i := 3) rfl, packNNN_and_F000 _ _⟩
theorem RowMatch.seImm (x : Reg) (nn : Byte) : RowMatch.Statement (.seImm x nn) := ⟨List.mem_of_getElem? (i := 4) rfl, packXNN_and_F000 _ _ _⟩
theorem RowMatch.sneImm (x : Reg) (nn : Byte) : RowMatch.Statement (.sneImm x nn) := ⟨List.mem_of_getElem? (i := 5) rfl, packXNN_and_F000 _ _ _⟩
theorem RowMatch.seReg (x y : Reg) : RowMatch.Statement (.seReg x y) := ⟨List.mem_of_getElem? (i := 6) rfl, packXYN_and_F00F _ _ _ _⟩
theorem RowMatch.ldImm (x : Reg) (nn : Byte) : RowMatch.Statement (.ldImm x nn) := ⟨List.mem_of_getElem? (i := 7) rfl, packXNN_and_F000 _ _ _⟩
theorem RowMatch.addImm (x : Reg) (nn : Byte) : RowMatch.Statement (.addImm x nn) := ⟨List.mem_of_getElem? (i := 8) rfl, packXNN_and_F000 _ _ _⟩
theorem RowMatch.ldReg (x y : Reg) : RowMatch.Statement (.ldReg x y) := ⟨List.mem_of_getElem? (i := 9) rfl, packXYN_and_F00F _ _ _ _⟩
theorem RowMatch.orReg (x y : Reg) : RowMatch.Statement (.orReg x y) := ⟨List.mem_of_getElem? (i := 10) rfl, packXYN_and_F00F _ _ _ _⟩
theorem RowMatch.andReg (x y : Reg) : RowMatch.Statement (.andReg x y) := ⟨List.mem_of_getElem? (i := 11) rfl, packXYN_and_F00F _ _ _ _⟩
theorem RowMatch.xorReg (x y : Reg) : RowMatch.Statement (.xorReg x y) := ⟨List.mem_of_getElem? (i := 12) rfl, packXYN_and_F00F _ _ _ _⟩
theorem RowMatch.addReg (x y : Reg) : RowMatch.Statement (.addReg x y) := ⟨List.mem_of_getElem? (i := 13) rfl, packXYN_and_F00F _ _ _ _⟩
theorem RowMatch.sub (x y : Reg) : RowMatch.Statement (.sub x y) := ⟨List.mem_of_getElem? (i := 14) rfl, packXYN_and_F00F _ _ _ _⟩
theorem RowMatch.shr (x y : Reg) : RowMatch.Statement (.shr x y) := ⟨List.mem_of_getElem? (i := 15) rfl, packXYN_and_F00F _ _ _ _⟩
theorem RowMatch.subn (x y : Reg) : RowMatch.Statement (.subn x y) := ⟨List.mem_of_getElem? (i := 16) rfl, packXYN_and_F00F _ _ _ _⟩
theorem RowMatch.shl (x y : Reg) : RowMatch.Statement (.shl x y) := ⟨List.mem_of_getElem? (i := 17) rfl, packXYN_and_F00F _ _ _ _⟩
theorem RowMatch.sneReg (x y : Reg) : RowMatch.Statement (.sneReg x y) := ⟨List.mem_of_getElem? (i := 18) rfl, packXYN_and_F00F _ _ _ _⟩
theorem RowMatch.ldI (nnn : BitVec 12) : RowMatch.Statement (.ldI nnn) := ⟨List.mem_of_getElem? (i := 19) rfl, packNNN_and_F000 _ _⟩
theorem RowMatch.jpV0 (nnn : BitVec 12) : RowMatch.Statement (.jpV0 nnn) := ⟨List.mem_of_getElem? (i := 20) rfl, packNNN_and_F000 _ _⟩
theorem RowMatch.rnd (x : Reg) (nn : Byte) : RowMatch.Statement (.rnd x nn) := ⟨List.mem_of_getElem? (i := 21) rfl, packXNN_and_F000 _ _ _⟩
theorem RowMatch.drw (x y : Reg) (n : Fin 16) : RowMatch.Statement (.drw x y n) := ⟨List.mem_of_getElem? (i := 22) rfl, packXYN_and_F000 _ _ _ _⟩
theorem RowMatch.skp (x : Reg) : RowMatch.Statement (.skp x) := ⟨List.mem_of_getElem? (i := 23) rfl, packXNN_and_F0FF _ _ _⟩
theorem RowMatch.sknp (x : Reg) : RowMatch.Statement (.sknp x) := ⟨List.mem_of_getElem? (i := 24) rfl, packXNN_and_F0FF _ _ _⟩
theorem RowMatch.ldVxDt (x : Reg) : RowMatch.Statement (.ldVxDt x) := ⟨List.mem_of_getElem? (i := 25) rfl, packXNN_and_F0FF _ _ _⟩
theorem RowMatch.ldVxK (x : Reg) : RowMatch.Statement (.ldVxK x) := ⟨List.mem_of_getElem? (i := 26) rfl, packXNN_and_F0FF _ _ _⟩
theorem RowMatch.ldDtVx (x : Reg) : RowMatch.Statement (.ldDtVx x) := ⟨List.mem_of_getElem? (i := 27) rfl, packXNN_and_F0FF _ _ _⟩
theorem RowMatch.ldStVx (x : Reg) : RowMatch.Statement (.ldStVx x) := ⟨List.mem_of_getElem? (i := 28) rfl, packXNN_and_F0FF _ _ _⟩
theorem RowMatch.addI (x : Reg) : RowMatch.Statement (.addI x) := ⟨List.mem_of_getElem? (i := 29) rfl, packXNN_and_F0FF _ _ _⟩
theorem RowMatch.ldF (x : Reg) : RowMatch.Statement (.ldF x) := ⟨List.mem_of_getElem? (i := 30) rfl, packXNN_and_F0FF _ _ _⟩
theorem RowMatch.ldB (x : Reg) : RowMatch.Statement (.ldB x) := ⟨List.mem_of_getElem? (i := 31) rfl, packXNN_and_F0FF _ _ _⟩
theorem RowMatch.stRegs (x : Reg) : RowMatch.Statement (.stRegs x) := ⟨List.mem_of_getElem? (i := 32) rfl, packXNN_and_F0FF _ _ _⟩
theorem RowMatch.ldRegs (x : Reg) : RowMatch.Statement (.ldRegs x) := ⟨List.mem_of_getElem? (i := 33) rfl, packXNN_and_F0FF _ _ _⟩

end Sys2Proof.Laws
end

