-- ==== Sys2Proof/Laws/Step.lean ====
section
/-! SUPPORT. What a step can do: one inversion lemma for the `Cycle` and one for the step, from which invariants follow
(00_scope.md R7, R10). -/

namespace Sys2Proof.Machine

/-- A `Cycle` that answers a next state: the core was not stopped, the fetch passed, and the word was executed. -/
theorem cycle_next (s t : State) (h : cycle s = .next t) :
    s.stoppedBy = none ∧ ∃ w, s.fetchWord = some w ∧ executeWord w s.beginCycle = .next t := by
  unfold cycle at h
  split at h
  · simp [raise] at h
  · next hs =>
    split at h
    · simp [raise] at h
    · next w hw => exact ⟨hs, w, hw, h⟩

/-- The word of a `Cycle` either decodes to an instruction, which runs, or is reported. -/
theorem executeWord_next (w : Word) (s t : State) (h : executeWord w s = .next t) :
    (∃ i, decodeWord w = .ok i ∧ exec i s = .next t) ∨ ((∃ e, decodeWord w = .error e) ∧ t = s.reportUnknown w) := by
  unfold executeWord at h
  split at h
  · next i hi => exact .inl ⟨i, hi, h⟩
  · next e he => exact .inr ⟨⟨e, he⟩, by simpa using h.symm⟩

/-- Everything a step that answers a next state can have done; `s'` is the state with the operation off the agenda. -/
theorem step_next (s t : State) (h : step s = .next t) :
    ∃ s', (s' = s ∨ ∃ rest, s' = { s with agenda := rest }) ∧
      ((∃ w i, s'.stoppedBy = none ∧ s'.fetchWord = some w ∧ decodeWord w = .ok i ∧ exec i s'.beginCycle = .next t) ∨
       (∃ w, s'.stoppedBy = none ∧ s'.fetchWord = some w ∧ (∃ e, decodeWord w = .error e) ∧ t = s'.beginCycle.reportUnknown w) ∨
       t = s'.hostReset ∨
       (∃ addr bytes, s'.fresh = true ∧ loadWellFormed addr bytes = true ∧ t = { s' with M := Memory.writeBytes s'.M addr bytes }) ∨
       t = s'.tick ∨ (∃ k, t = s'.keysWrite k) ∨ t = s'.dirtyAck ∨ t = s') := by
  have fromCycle : ∀ s' : State, cycle s' = .next t →
      (∃ w i, s'.stoppedBy = none ∧ s'.fetchWord = some w ∧ decodeWord w = .ok i ∧ exec i s'.beginCycle = .next t) ∨
      (∃ w, s'.stoppedBy = none ∧ s'.fetchWord = some w ∧ (∃ e, decodeWord w = .error e) ∧ t = s'.beginCycle.reportUnknown w) := by
    intro s' hc
    obtain ⟨hs, w, hw, hx⟩ := cycle_next s' t hc
    obtain ⟨i, hi, he⟩ | ⟨he, ht⟩ := executeWord_next w _ t hx
    · exact .inl ⟨w, i, hs, hw, hi, he⟩
    · exact .inr ⟨w, hs, hw, he, ht⟩
  unfold step nextOperation at h
  split at h
  · obtain h1 | h2 := fromCycle s h
    · exact ⟨s, .inl rfl, .inl h1⟩
    · exact ⟨s, .inl rfl, .inr (.inl h2)⟩
  · next op rest _ =>
    refine ⟨{ s with agenda := rest }, .inr ⟨rest, rfl⟩, ?_⟩
    cases op with
    | reset => exact .inr (.inr (.inl (by simpa [perform] using h.symm)))
    | load addr bytes =>
      simp only [perform, hostLoad] at h
      split at h
      · next hf =>
        split at h
        · next hl => exact .inr (.inr (.inr (.inl ⟨addr, bytes, hf, hl, by simpa using h.symm⟩)))
        · simp at h
      · simp at h
    | cycle =>
      obtain h1 | h2 := fromCycle _ h
      · exact .inl h1
      · exact .inr (.inl h2)
    | tick => exact .inr (.inr (.inr (.inr (.inl (by simpa [perform] using h.symm)))))
    | keysWrite k => exact .inr (.inr (.inr (.inr (.inr (.inl ⟨k, by simpa [perform] using h.symm⟩)))))
    | dirtyAck => exact .inr (.inr (.inr (.inr (.inr (.inr (.inl (by simpa [perform] using h.symm)))))))
    | observe => exact .inr (.inr (.inr (.inr (.inr (.inr (.inr (by simpa [perform] using h.symm)))))))

end Sys2Proof.Machine
end

