-- ==== Sys2Proof/Tests/Slice0.lean ====
section
/-! SUPPORT. The model's own tests: ill-formed terms are refused, one encoding of every instruction decodes, single steps give the
results of 95_test_vectors.md, and every statement with hypotheses has a witness that meets them. -/

namespace Sys2Proof.Tests

open Sys2Proof.Machine Sys2Proof.Claims

/-! ### Helpers -/

/-- The reset state with some general registers set. -/
def start (rs : List (Reg × Byte)) : State := rs.foldl (fun s r => s.setReg r.1 r.2) State.reset

/-- The same with an index pointer. -/
def startI (i : Word) (rs : List (Reg × Byte)) : State := { start rs with I := i }

/-- Bytes placed in a state's memory. -/
def poke (a : Nat) (bytes : List Byte) (s : State) : State := { s with M := Memory.writeBytes s.M a bytes }

/-- Some keys held down. -/
def hold (ks : List Key) (s : State) : State := { s with K := ks.foldl (fun v k => v.set k.val true k.isLt) s.K }

/-- Some pixels lit. -/
def light (ps : List (Fin 64 × Fin 32)) (s : State) : State := { s with P := ps.foldl (fun g p => Grid.flip g p.1 p.2) s.P }

/-- One step that executes the word `w`, stored at `pc`. -/
def run (w : Word) (s : State) : Result := step (s.placeWord w)

/-- The outcome is a next state of which `p` holds. -/
def gives (r : Result) (p : State → Bool) : Bool :=
  match r with
  | .next t => p t
  | _ => false

/-- The outcome is the fault `f`. -/
def faults (r : Result) (f : Fault) : Bool :=
  match r with
  | .fault g => g == f
  | _ => false

/-- The outcome is the refusal `q`. -/
def refuses (r : Result) (q : Refusal) : Bool :=
  match r with
  | .refused p => p == q
  | _ => false

/-- The bytes `hi lo` decode to `i` and nothing is left over. -/
def decodesTo (hi lo : Byte) (i : Instr) : Bool :=
  match decode [hi, lo] with
  | .ok (j, []) => i == j
  | _ => false

/-- The bytes `hi lo` are rejected as the unknown instruction `w`. -/
def rejects (hi lo : Byte) (w : Word) : Bool :=
  match decode [hi, lo] with
  | .error e => e == .unknownInstruction w
  | .ok _ => false

/-- The pixels of `on` are 1 and those of `off` are 0. -/
def shows (t : State) (on off : List (Fin 64 × Fin 32)) : Bool :=
  on.all (fun p => Grid.pixel t.P p.1 p.2) && off.all (fun p => !Grid.pixel t.P p.1 p.2)

/-! ### Well-formedness: ill-formed terms are refused (30_encoding.md R86, 20_memory.md R56, 70_reset_and_hazards.md R242, R243,
00_scope.md R11) -/

theorem test_wf_zero_word : wordWellFormed 0x0000 = false := by decide
theorem test_wf_sys_word : wordWellFormed 0x0123 = false := by decide
theorem test_wf_group5 : wordWellFormed 0x5121 = false := by decide
theorem test_wf_group8 : wordWellFormed 0x8128 = false := by decide
theorem test_wf_group9 : wordWellFormed 0x912F = false := by decide
theorem test_wf_groupE : wordWellFormed 0xE19F = false := by decide
theorem test_wf_groupF : wordWellFormed 0xF175 = false := by decide
theorem test_wf_defined : wordWellFormed 0x8126 = true := by decide
theorem test_wf_one_byte : bytesWellFormed [0x60] = false := by decide
theorem test_wf_three_bytes : bytesWellFormed [0x60, 0x05, 0x00] = false := by decide
theorem test_wf_bad_bytes : bytesWellFormed [0xF1, 0x75] = false := by decide
theorem test_wf_load_past_end : loadWellFormed 0xFFF [0x01, 0x02] = false := by decide
/-- A `Load` of no bytes, the model's choice (log entry 17). -/
theorem test_wf_load_nothing : loadWellFormed 4096 [] = true ∧ loadWellFormed 4097 [] = false := by decide
theorem test_wf_load_last : loadWellFormed 0xFFF [0x01] = true := by decide
theorem test_wf_rom_too_long : romWellFormed (List.replicate 3585 0) = false :=
  decide_eq_false (by rw [List.length_replicate]; decide)
theorem test_wf_rom_longest : romWellFormed (List.replicate 3584 0) = true :=
  decide_eq_true (by rw [List.length_replicate]; decide)

/-- R11: `CYCLES_PER_FRAME` is a positive integer. -/
theorem test_wf_cycles_per_frame : cyclesPerFrameWellFormed 0 = false ∧ cyclesPerFrameWellFormed 1 = true := by decide

/-! ### Decoding: words written out from 30_encoding.md R82 and R85 -/

theorem test_decode_cls : decodesTo 0x00 0xE0 .cls = true := by decide
theorem test_decode_ret : decodesTo 0x00 0xEE .ret = true := by decide
theorem test_decode_jp : decodesTo 0x1A 0xBC (.jp 0xABC) = true := by decide
theorem test_decode_call : decodesTo 0x2F 0x01 (.call 0xF01) = true := by decide
theorem test_decode_seImm : decodesTo 0x33 0x2A (.seImm 3 0x2A) = true := by decide
theorem test_decode_sneImm : decodesTo 0x4E 0x81 (.sneImm 14 0x81) = true := by decide
theorem test_decode_seReg : decodesTo 0x51 0x20 (.seReg 1 2) = true := by decide
theorem test_decode_ldImm : decodesTo 0x6A 0xFF (.ldImm 10 0xFF) = true := by decide
theorem test_decode_addImm : decodesTo 0x72 0x20 (.addImm 2 0x20) = true := by decide
theorem test_decode_ldReg : decodesTo 0x8A 0xF0 (.ldReg 10 15) = true := by decide
theorem test_decode_orReg : decodesTo 0x81 0x21 (.orReg 1 2) = true := by decide
theorem test_decode_andReg : decodesTo 0x83 0xC2 (.andReg 3 12) = true := by decide
theorem test_decode_xorReg : decodesTo 0x81 0x13 (.xorReg 1 1) = true := by decide
theorem test_decode_addReg : decodesTo 0x8F 0x14 (.addReg 15 1) = true := by decide
theorem test_decode_sub : decodesTo 0x81 0xF5 (.sub 1 15) = true := by decide
theorem test_decode_shr : decodesTo 0x81 0x26 (.shr 1 2) = true := by decide
theorem test_decode_subn : decodesTo 0x87 0x67 (.subn 7 6) = true := by decide
theorem test_decode_shl : decodesTo 0x81 0x2E (.shl 1 2) = true := by decide
theorem test_decode_sneReg : decodesTo 0x9D 0x30 (.sneReg 13 3) = true := by decide
theorem test_decode_ldI : decodesTo 0xA3 0x05 (.ldI 0x305) = true := by decide
theorem test_decode_jpV0 : decodesTo 0xBF 0xFE (.jpV0 0xFFE) = true := by decide
theorem test_decode_rnd : decodesTo 0xC3 0x0F (.rnd 3 0x0F) = true := by decide
theorem test_decode_drw : decodesTo 0xD1 0x25 (.drw 1 2 5) = true := by decide
theorem test_decode_skp : decodesTo 0xE2 0x9E (.skp 2) = true := by decide
theorem test_decode_sknp : decodesTo 0xEB 0xA1 (.sknp 11) = true := by decide
theorem test_decode_ldVxDt : decodesTo 0xF6 0x07 (.ldVxDt 6) = true := by decide
theorem test_decode_ldVxK : decodesTo 0xF4 0x0A (.ldVxK 4) = true := by decide
theorem test_decode_ldDtVx : decodesTo 0xF9 0x15 (.ldDtVx 9) = true := by decide
theorem test_decode_ldStVx : decodesTo 0xF8 0x18 (.ldStVx 8) = true := by decide
theorem test_decode_addI : decodesTo 0xF2 0x1E (.addI 2) = true := by decide
theorem test_decode_ldF : decodesTo 0xF0 0x29 (.ldF 0) = true := by decide
theorem test_decode_ldB : decodesTo 0xF5 0x33 (.ldB 5) = true := by decide
theorem test_decode_stRegs : decodesTo 0xF7 0x55 (.stRegs 7) = true := by decide
theorem test_decode_ldRegs : decodesTo 0xFC 0x65 (.ldRegs 12) = true := by decide
theorem test_decode_unknown_00FF : rejects 0x00 0xFF 0x00FF = true := by decide
theorem test_decode_unknown_812F : rejects 0x81 0x2F 0x812F = true := by decide
theorem test_decode_unknown_E000 : rejects 0xE0 0x00 0xE000 = true := by decide
theorem test_decode_unknown_FFFF : rejects 0xFF 0xFF 0xFFFF = true := by decide
theorem test_decode_truncated : decode [0x60] = .error .truncated := by rfl
theorem test_table_word : decodeTableWord 16 0x8126 = some (.shr 1 2) := by decide

/-! ### Fetch, unknown words, fetch errors (95_test_vectors.md T-E1 to T-E20) -/

theorem test_fetch_big_endian : gives (step (poke 0x200 [0x12, 0x34] State.reset)) (fun t => t.pc == 0x0234) = true := by decide

theorem test_fetch_odd_pc : gives (step (poke 0x201 [0x60, 0x07] { State.reset with pc := 0x0201 }))
    (fun t => t.reg 0 == 0x07 && t.pc == 0x0203) = true := by decide

theorem test_fetch_last_slot : gives (step (poke 0xFFE [0x6A, 0x01] { State.reset with pc := 0x0FFE }))
    (fun t => t.reg 10 == 0x01 && t.pc == 0x1000) = true := by decide

theorem test_fetch_at_0FFF : faults (step { State.reset with pc := 0x0FFF }) (.fetchOutOfBounds 0x0FFF) = true := by decide

theorem test_fetch_at_FFFF : faults (step { State.reset with pc := 0xFFFF }) (.fetchOutOfBounds 0xFFFF) = true := by decide

theorem test_unknown_zero : gives (step State.reset)
    (fun t => t.report == some (.unknownInstruction 0x0200 0x0000) && t.pc == 0x0202) = true := by decide

theorem test_unknown_5121 : gives (run 0x5121 (start [(1, 0x07), (2, 0x07)]))
    (fun t => t.report == some (.unknownInstruction 0x0200 0x5121) && t.pc == 0x0202) = true := by decide

theorem test_unknown_8128 : gives (run 0x8128 (start [(1, 0xFF), (2, 0x01)]))
    (fun t => t.reg 1 == 0xFF && t.reg 15 == 0x00 && t.pc == 0x0202) = true := by decide

/-! ### Control transfer (S3, S4, T-C1 to T-C17) -/

theorem test_ret_pops : gives (run 0x00EE { State.reset with
      pc := 0x0300, SP := 2, STK := (State.reset.STK.set 0 0x0202).set 1 0x0456 })
    (fun t => t.SP.val == 1 && t.pc == 0x0456) = true := by decide

theorem test_ret_underflow : faults (run 0x00EE { State.reset with pc := 0x0300 }) (.stackUnderflow 0x0300 0x00EE) = true := by
  decide

theorem test_jp_odd : gives (run 0x1FFF State.reset) (fun t => t.pc == 0x0FFF) = true := by decide

theorem test_call_last_slot : gives (run 0x2ABC { State.reset with pc := 0x02FE, SP := 47 })
    (fun t => t.SP.val == 48 && t.STK[47] == 0x0300 && t.pc == 0x0ABC) = true := by decide

theorem test_call_overflow : faults (run 0x2ABC { State.reset with pc := 0x02FE, SP := 48 })
    (.stackOverflow 0x02FE 0x2ABC) = true := by decide

theorem test_se_imm_equal : gives (run 0x332A (start [(3, 0x2A)])) (fun t => t.pc == 0x0204) = true := by decide

theorem test_se_imm_differ : gives (run 0x332B (start [(3, 0x2A)])) (fun t => t.pc == 0x0202) = true := by decide

theorem test_sne_imm_equal : gives (run 0x432A (start [(3, 0x2A)])) (fun t => t.pc == 0x0202) = true := by decide

theorem test_sne_imm_differ : gives (run 0x432B (start [(3, 0x2A)])) (fun t => t.pc == 0x0204) = true := by decide

theorem test_se_reg_equal : gives (run 0x5120 (start [(1, 0x07), (2, 0x07)])) (fun t => t.pc == 0x0204) = true := by decide

theorem test_se_reg_differ : gives (run 0x5120 (start [(1, 0x07), (2, 0x08)])) (fun t => t.pc == 0x0202) = true := by decide

theorem test_sne_reg_differ : gives (run 0x9120 (start [(1, 0x07), (2, 0x08)])) (fun t => t.pc == 0x0204) = true := by decide

theorem test_sne_reg_same : gives (run 0x9660 (start [(6, 0x99)])) (fun t => t.pc == 0x0202) = true := by decide

theorem test_skip_at_top : gives (run 0x332A { start [(3, 0x2A)] with pc := 0x0FFE }) (fun t => t.pc == 0x1002) = true := by decide

theorem test_jp_v0_uses_v0 : gives (run 0xB300 (start [(0, 0x02), (3, 0x50)])) (fun t => t.pc == 0x0302) = true := by decide

theorem test_jp_v0_not_reduced : gives (run 0xBFFF (start [(0, 0xFF)])) (fun t => t.pc == 0x10FE) = true := by decide

/-! ### Registers and arithmetic (S1, S2, T-A1 to T-A33) -/

theorem test_ld_imm_vf : gives (run 0x6F00 (start [(15, 0x01)])) (fun t => t.reg 15 == 0x00 && t.pc == 0x0202) = true := by decide

theorem test_add_imm_wraps : gives (run 0x7220 (start [(2, 0xF0), (15, 0x01)]))
    (fun t => t.reg 2 == 0x10 && t.reg 15 == 0x01) = true := by decide

theorem test_ld_reg : gives (run 0x8120 (start [(1, 0x11), (2, 0x22)])) (fun t => t.reg 1 == 0x22 && t.reg 2 == 0x22) = true := by
  decide

theorem test_or_keeps_vf : gives (run 0x8121 (start [(1, 0xF0), (2, 0x0F), (15, 0x01)]))
    (fun t => t.reg 1 == 0xFF && t.reg 15 == 0x01) = true := by decide

theorem test_and_keeps_vf : gives (run 0x8122 (start [(1, 0xF0), (2, 0x3C), (15, 0x01)]))
    (fun t => t.reg 1 == 0x30 && t.reg 15 == 0x01) = true := by decide

theorem test_xor_keeps_vf : gives (run 0x8123 (start [(1, 0xF0), (2, 0x3C), (15, 0x01)]))
    (fun t => t.reg 1 == 0xCC && t.reg 15 == 0x01) = true := by decide

theorem test_add_reg_carry : gives (run 0x8124 (start [(1, 0xFF), (2, 0x01)]))
    (fun t => t.reg 1 == 0x00 && t.reg 15 == 0x01) = true := by decide

theorem test_add_reg_vf_dest : gives (run 0x8F14 (start [(15, 0x01), (1, 0x02)])) (fun t => t.reg 15 == 0x00) = true := by decide

theorem test_sub_equal : gives (run 0x8125 (start [(1, 0x33), (2, 0x33), (15, 0x01)]))
    (fun t => t.reg 1 == 0x00 && t.reg 15 == 0x00) = true := by decide

theorem test_sub_reads_old_vf : gives (run 0x81F5 (start [(1, 0x05), (15, 0x03)]))
    (fun t => t.reg 1 == 0x02 && t.reg 15 == 0x01) = true := by decide

theorem test_shr_ignores_y : gives (run 0x8126 (start [(1, 0x05), (2, 0xAA)]))
    (fun t => t.reg 1 == 0x02 && t.reg 2 == 0xAA && t.reg 15 == 0x01) = true := by decide

theorem test_shr_vf_dest : gives (run 0x8F06 (start [(15, 0x05)])) (fun t => t.reg 15 == 0x02) = true := by decide

theorem test_subn_borrows : gives (run 0x8127 (start [(1, 0x07), (2, 0x05)]))
    (fun t => t.reg 1 == 0xFE && t.reg 15 == 0x00) = true := by decide

theorem test_subn_vf_dest : gives (run 0x8F17 (start [(15, 0x02), (1, 0x09)])) (fun t => t.reg 15 == 0x07) = true := by decide

theorem test_shl_ignores_y : gives (run 0x812E (start [(1, 0x81), (2, 0x55)]))
    (fun t => t.reg 1 == 0x02 && t.reg 2 == 0x55 && t.reg 15 == 0x01) = true := by decide

theorem test_shl_vf_dest : gives (run 0x8F0E (start [(15, 0x81)])) (fun t => t.reg 15 == 0x02) = true := by decide

/-! ### Index pointer and memory transfer (S7, T-M1 to T-M27) -/

theorem test_ld_i : gives (run 0xAFFF (startI 0x0123 [])) (fun t => t.I == 0x0FFF && t.pc == 0x0202) = true := by decide

theorem test_add_i_wraps : gives (run 0xF21E (startI 0xFF80 [(2, 0xFF)])) (fun t => t.I == 0x007F && t.reg 15 == 0x00) = true := by
  decide

theorem test_ld_f_no_mask : gives (run 0xF329 (start [(3, 0x10)])) (fun t => t.I == 0x0050) = true := by decide

theorem test_ld_f_largest : gives (run 0xF329 (start [(3, 0xFF)])) (fun t => t.I == 0x04FB) = true := by decide

theorem test_ld_b_top : gives (run 0xF533 (startI 0x0FFD [(5, 0x7B)]))
    (fun t => t.memRead 0xFFD == 1 && t.memRead 0xFFE == 2 && t.memRead 0xFFF == 3) = true := by decide

theorem test_ld_b_out : faults (run 0xF533 (startI 0x2000 [(5, 0x7B)])) (.dataOutOfBounds 0x0200 0xF533 0x2000) = true := by decide

theorem test_st_regs : gives (run 0xF255 (startI 0x0400 [(0, 0x11), (1, 0x22), (2, 0x33), (3, 0x44)]))
    (fun t => Memory.readBytes t.M 0x400 4 == [0x11, 0x22, 0x33, 0x00] && t.I == 0x0400) = true := by decide

theorem test_st_regs_out : faults (run 0xF155 (startI 0x0FFF [(0, 0xAB), (1, 0xCD)]))
    (.dataOutOfBounds 0x0200 0xF155 0x1000) = true := by decide

theorem test_ld_regs : gives (run 0xF265 (poke 0x400 [0x11, 0x22, 0x33, 0x44] (startI 0x0400 [(3, 0x99)])))
    (fun t => t.reg 0 == 0x11 && t.reg 1 == 0x22 && t.reg 2 == 0x33 && t.reg 3 == 0x99 && t.I == 0x0400) = true := by decide

theorem test_ld_regs_out : faults (run 0xF165 (startI 0x0FFF [(0, 0x77), (1, 0x88)]))
    (.dataOutOfBounds 0x0200 0xF165 0x1000) = true := by decide

/-! ### Display (S5, S6, T-D1 to T-D15) -/

theorem test_cls : gives (run 0x00E0 (light [(0, 0), (63, 31), (10, 5)] (start [(15, 0x01)])))
    (fun t => shows t [] [(0, 0), (63, 31), (10, 5)] && t.DIRTY && t.reg 15 == 0x01) = true := by decide

theorem test_drw_wraps : gives (run 0xD012 (poke 0x300 [0x81, 0x42] (startI 0x0300 [(0, 0x3F), (1, 0x1F)])))
    (fun t => shows t [(63, 31), (6, 31), (0, 0), (5, 0)] [(63, 0), (0, 31), (5, 31), (6, 0), (1, 0)] && t.reg 15 == 0x00 && t.DIRTY) = true := by decide

theorem test_drw_collides : gives (run 0xD011 (poke 0x300 [0xC0] (light [(1, 0)] (startI 0x0300 []))))
    (fun t => shows t [(0, 0)] [(1, 0), (7, 0), (6, 0), (0, 1)] && t.reg 15 == 0x01 && t.DIRTY) = true := by decide

theorem test_drw_height_zero : gives (run 0xD010 (startI 0x2000 [(15, 0x01)]))
    (fun t => shows t [] [(0, 0), (7, 0)] && t.reg 15 == 0x00 && t.DIRTY && t.pc == 0x0202) = true := by decide

theorem test_drw_out : faults (run 0xD007 (startI 0x0FFA [(15, 0x01)])) (.dataOutOfBounds 0x0200 0xD007 0x1000) = true := by decide

/-- T-D11: the column is read before VF is written. -/
theorem test_drw_vf_column : gives (run 0xDF11 (poke 0x300 [0x80] (startI 0x0300 [(15, 0x03), (1, 0x00)])))
    (fun t => shows t [(3, 0)] [(0, 0), (2, 0), (4, 0), (3, 1)] && t.reg 15 == 0x00) = true := by decide

/-! ### Random, keys, timers (T-K1 to T-K20, S8) -/

/-- T-K2: whatever the random byte is, `NN` = 0 gives 0 and one byte is consumed. -/
theorem test_rnd_zero_mask : ∃ t, run 0xC300 (start [(3, 0x55)]) = .next t ∧ t.reg 3 = 0x00 ∧ t.draws = 1 ∧ t.pc = 0x0202 :=
  ⟨_, rfl, BitVec.zero_and, rfl, rfl⟩

/-- T-K3: with `NN` = 0xFF the register is the byte itself. -/
theorem test_rnd_full_mask : ∃ t, run 0xC3FF State.reset = .next t ∧ t.reg 3 = Config.randByte 0 :=
  ⟨_, rfl, BitVec.allOnes_and⟩

theorem test_skp_low_nibble : gives (run 0xE29E (hold [10] (start [(2, 0x1A)]))) (fun t => t.pc == 0x0204) = true := by decide

theorem test_skp_other_keys : gives (run 0xE29E (hold [4, 6] (start [(2, 0x05)]))) (fun t => t.pc == 0x0202) = true := by decide

theorem test_sknp_down : gives (run 0xE2A1 (hold [0] (start [(2, 0xF0)]))) (fun t => t.pc == 0x0202) = true := by decide

theorem test_sknp_up : gives (run 0xE2A1 (start [(2, 0x05)])) (fun t => t.pc == 0x0204) = true := by decide

theorem test_ld_k_waits : gives (run 0xF40A { start [(4, 0x99)] with pc := 0x0220 })
    (fun t => t.reg 4 == 0x99 && t.pc == 0x0220) = true := by decide

theorem test_ld_k_lowest : gives (run 0xF40A (hold [7, 3] { start [(4, 0x99)] with pc := 0x0220 }))
    (fun t => t.reg 4 == 0x03 && t.pc == 0x0222) = true := by decide

theorem test_ld_vx_dt : gives (run 0xF607 { start [(6, 0x77)] with DT := 0x2C }) (fun t => t.reg 6 == 0x2C && t.DT == 0x2C) = true := by
  decide

theorem test_ld_dt_vx : gives (run 0xF615 { start [(6, 0x3C)] with ST := 0x01 }) (fun t => t.DT == 0x3C && t.ST == 0x01) = true := by
  decide

theorem test_ld_st_vx : gives (run 0xF618 { start [(6, 0xFF)] with ST := 0x01, DT := 0x09 })
    (fun t => t.ST == 0xFF && t.DT == 0x09) = true := by decide

/-- S8.4 and S8.1: a tick takes 1 off each timer and stops at 0. -/
theorem test_tick : gives (step { State.reset with DT := 2, ST := 5, agenda := [.tick] })
    (fun t => t.DT == 1 && t.ST == 4 && t.pc == 0x0200) = true := by decide

theorem test_tick_zero : gives (step { State.reset with DT := 0, ST := 1, agenda := [.tick] })
    (fun t => t.DT == 0 && t.ST == 0) = true := by decide

/-! ### Errors and the host's operations (60_exceptions.md R208, 70_reset_and_hazards.md R240, R242) -/

/-- The state with no instruction left to fetch, stopped by that error. -/
def stoppedState : State := { State.reset with pc := 0x0FFF }.stopWith (.fetchOutOfBounds 0x0FFF)

theorem test_stopped_core_refaults : faults (step stoppedState) (.fetchOutOfBounds 0x0FFF) = true := by decide

/-- After T-E4 a `Tick` still acts and the core stays stopped. -/
theorem test_stopped_core_ticks : (hostStep { stoppedState with DT := 5, agenda := [.tick] }).DT = 4 ∧
    (hostStep { stoppedState with DT := 5, agenda := [.tick] }).stoppedBy = some (.fetchOutOfBounds 0x0FFF) := by decide

theorem test_reset_restarts : (hostStep { stoppedState with agenda := [.reset] }).stoppedBy = none ∧
    (hostStep { stoppedState with agenda := [.reset] }).pc = 0x0200 := by decide

theorem test_load_after_cycle : refuses (step { State.reset with fresh := false, agenda := [.load 0x200 [0x12, 0x00]] })
    .loadAfterFirstCycle = true := by decide

theorem test_dirty_ack : gives (step { State.reset with DIRTY := true, agenda := [.dirtyAck] }) (fun t => !t.DIRTY) = true := by decide

theorem test_keys_write : gives (step { hold [4] State.reset with agenda := [.keysWrite (Vector.replicate 16 false)] })
    (fun t => !t.keyDown 4) = true := by decide

/-- The schedule of R9 with two cycles to a frame, and no frame of no cycles (R11). -/
theorem test_frame : frameAgenda 2 (Vector.replicate 16 false) =
      some [.keysWrite (Vector.replicate 16 false), .cycle, .cycle, .tick, .observe, .dirtyAck] ∧
    frameAgenda 0 (Vector.replicate 16 false) = none := by decide

/-- The error codes of 60_exceptions.md R201. -/
theorem test_codes : Report.code (.fatal (.stackOverflow 0 0)) = 1 ∧ Report.code (.fatal (.stackUnderflow 0 0)) = 2 ∧
    Report.code (.fatal (.fetchOutOfBounds 0)) = 3 ∧ Report.code (.fatal (.dataOutOfBounds 0 0 0)) = 3 ∧
    Report.code (.unknownInstruction 0 0) = 4 := by decide

/-- The glyph of "A" is at 50 in a font based at 0x000 (S9, U9). -/
theorem test_font_glyph_a : (Config.customaryFont.drop 50).take 5 = [0xF0, 0x90, 0xF0, 0x90, 0x90] ∧
    Config.customaryFont.length = 80 := by decide

/-- `withFetchWord` from reset, and on a core that has stopped outside memory with a `Tick` still to come (log entry 21). -/
theorem test_with_fetch_word : gives (step (State.reset.withFetchWord 16 0x6005)) (fun t => t.reg 0 == 0x05 && t.pc == 0x0202) = true ∧
    gives (step (({ stoppedState with agenda := [.tick] } : State).withFetchWord 16 0x6005))
      (fun t => t.reg 0 == 0x05 && t.pc == 0x0202 && t.agenda == [.tick]) = true := by decide

theorem test_core_step : core.step core.reset = step State.reset := rfl

/-! ### Witnesses: for every statement with hypotheses, states and operands that meet them, clause by clause -/

/-- A state past its first `Cycle`, with the registers `rs`. -/
def running (rs : List (Reg × Byte)) : State := { start rs with fresh := false }

theorem witness_EncodeDecodeRoundTrip : decodeWord 0x81A6 = .ok (.shr 1 10) := rfl

theorem witness_DecoderMatchesOpcodeMap : wordWellFormed 0xF165 = true ∧ wordWellFormed 0xF166 = false := by decide

theorem witness_OpcodeRowsDisjoint : (⟨"LD_REGS", 0xF0FF, 0xF065⟩ : OpcodeRow) ∈ opcodeRows ∧
    OpcodeRow.selects ⟨"LD_REGS", 0xF0FF, 0xF065⟩ 0xFF65 = true := by decide

theorem witness_FetchIsBigEndian : ({ State.reset with pc := 0x0FFE } : State).pc.toNat + 1 ≤ 4095 := by decide

/-- Both sides of the bound: 4094 passes, 4095 fails. -/
theorem witness_FetchFailsExactlyOutOfBounds :
    (({ State.reset with pc := 0x0FFE } : State).agenda = [] ∧ ({ State.reset with pc := 0x0FFE } : State).stoppedBy = none ∧
      ¬({ State.reset with pc := 0x0FFE } : State).pc.toNat + 1 > 4095) ∧
    (({ State.reset with pc := 0x0FFF } : State).agenda = [] ∧ ({ State.reset with pc := 0x0FFF } : State).stoppedBy = none ∧
      ({ State.reset with pc := 0x0FFF } : State).pc.toNat + 1 > 4095) := by decide

/-- In the last slot, by an empty agenda. -/
theorem witness_StepRunsDecoded :
    let s := poke 0xFFE [0x60, 0x05] { State.reset with pc := 0x0FFE }
    s.agenda = [] ∧ s.stoppedBy = none ∧ s.pc.toNat + 1 ≤ 4095 ∧
      decode [s.memRead s.pc.toNat, s.memRead (s.pc.toNat + 1)] = .ok (.ldImm 0 0x05, []) :=
  ⟨rfl, rfl, by decide, rfl⟩

/-- The same where the agenda asks for the `Cycle`. -/
theorem witness_StepRunsDecoded_asked :
    let s := poke 0xFFE [0x60, 0x05] { State.reset with pc := 0x0FFE, agenda := [.cycle, .tick] }
    s.agenda = .cycle :: [.tick] ∧ s.stoppedBy = none ∧ s.pc.toNat + 1 ≤ 4095 ∧
      decode [s.memRead s.pc.toNat, s.memRead (s.pc.toNat + 1)] = .ok (.ldImm 0 0x05, []) :=
  ⟨rfl, rfl, by decide, rfl⟩

theorem witness_StepRunsDecoded_agenda : ({ State.reset with agenda := [.tick, .cycle] } : State).agenda = .tick :: [.cycle] ∧
    State.reset.agenda = [] := ⟨rfl, rfl⟩

theorem witness_UnknownWordReportedAndSkipped :
    let s := poke 0xFFE [0x81, 0x28] { State.reset with pc := 0x0FFE }
    s.agenda = [] ∧ s.stoppedBy = none ∧ s.pc.toNat + 1 ≤ 4095 ∧
      ∀ r ∈ opcodeRows, r.selects (s.memRead s.pc.toNat ++ s.memRead (s.pc.toNat + 1)) = false := by decide

/-- The same where the agenda asks for the `Cycle`. -/
theorem witness_UnknownWordReportedAndSkipped_agenda :
    let s := poke 0xFFE [0x81, 0x28] { State.reset with pc := 0x0FFE, agenda := [.cycle, .tick] }
    s.agenda = .cycle :: [.tick] ∧ s.stoppedBy = none ∧ s.pc.toNat + 1 ≤ 4095 ∧
      ∀ r ∈ opcodeRows, r.selects (s.memRead s.pc.toNat ++ s.memRead (s.pc.toNat + 1)) = false := by decide

/-- Each of the three fatal cases is met, the data case at its lower bound. -/
theorem witness_InstructionFaultsExactly :
    faults (exec (.call 0x300) { State.reset with SP := 48 }) (.stackOverflow 0x0200 0x2300) = true ∧
    faults (exec .ret State.reset) (.stackUnderflow 0x0200 0x00EE) = true ∧
    faults (exec (.ldB 5) (startI 0x0FFE [])) (.dataOutOfBounds 0x0200 0xF533 4096) = true := by decide

/-- The hypotheses at their bounds, for the three instructions they speak of and for one they do not. -/
theorem witness_EveryInstructionCompletes :
    ({ State.reset with SP := 47 } : State).SP.val < 48 ∧ 0 < ({ State.reset with SP := 1 } : State).SP.val ∧
    (startI 0x0FF0 []).I.toNat + dataLen (.stRegs 15) ≤ 4096 ∧ dataLen (.drw 0 0 0) = 0 ∧ dataLen (.jp 0x200) = 0 := by decide

theorem witness_FatalErrorStopsUnchanged : step { State.reset with pc := 0x0FFF } = .fault (.fetchOutOfBounds 0x0FFF) := rfl

theorem witness_OnlyResetRestartsStoppedCore :
    (stoppedState.stoppedBy.isSome = true → stoppedState.fresh = false) ∧
    stoppedState.stoppedBy = some (.fetchOutOfBounds 0x0FFF) ∧ stoppedState.agenda.head? ≠ some .reset := by decide

theorem witness_HostStepKeepsStoppedNotFresh : stoppedState.StoppedNotFresh ∧ State.reset.StoppedNotFresh := by
  unfold State.StoppedNotFresh; decide

theorem witness_ReturnPopsOrUnderflows : State.reset.SP.val = 0 ∧
    ({ State.reset with SP := 1 } : State).SP.val = (0 : Fin 48).val + 1 ∧
    ({ State.reset with SP := 48 } : State).SP.val = (47 : Fin 48).val + 1 := by decide

theorem witness_CallPushesOrOverflows : ({ State.reset with SP := 48 } : State).SP.val = 48 ∧
    State.reset.SP.val = (0 : Fin 48).val ∧ ({ State.reset with SP := 47 } : State).SP.val = (47 : Fin 48).val := by decide

theorem witness_SkipsOnImmediate : (start [(3, 0x2A)]).reg 3 = 0x2A ∧ (start [(3, 0x2A)]).reg 3 ≠ 0x2B := by decide

theorem witness_SkipsOnRegisters :
    ((0x512F : Word).extractLsb' 12 4 = 0x5 ∧ (0x512F : Word).extractLsb' 0 4 ≠ 0) ∧
    ((0x9121 : Word).extractLsb' 12 4 = 0x9 ∧ (0x9121 : Word).extractLsb' 0 4 ≠ 0) ∧
    (start [(1, 7), (2, 7)]).reg 1 = (start [(1, 7), (2, 7)]).reg 2 ∧
    (start [(1, 7), (2, 8)]).reg 1 ≠ (start [(1, 7), (2, 8)]).reg 2 := by decide

theorem witness_CallThenReturnResumes : ({ State.reset with SP := 47 } : State).SP.val < 48 := by decide

/-- 255 gives no carry, 256 does. -/
theorem witness_AddWithCarryFlag : (1 : Reg) ≠ regF ∧
    ¬((start [(1, 0xFE), (2, 0x01)]).reg 1).toNat + ((start [(1, 0xFE), (2, 0x01)]).reg 2).toNat > 255 ∧
    ((start [(1, 0xFF), (2, 0x01)]).reg 1).toNat + ((start [(1, 0xFF), (2, 0x01)]).reg 2).toNat > 255 := by decide

/-- Equal operands give no flag, one more does. -/
theorem witness_SubtractWithStrictFlag : (1 : Reg) ≠ regF ∧
    ¬((start [(1, 0x33), (2, 0x33)]).reg 1).toNat > ((start [(1, 0x33), (2, 0x33)]).reg 2).toNat ∧
    ((start [(1, 0x34), (2, 0x33)]).reg 1).toNat > ((start [(1, 0x34), (2, 0x33)]).reg 2).toNat := by decide

theorem witness_ShiftWithBitOut : (1 : Reg) ≠ regF ∧
    ((start [(1, 0x81)]).reg 1).toNat % 2 = 1 ∧ ¬((start [(1, 0x7E)]).reg 1).toNat % 2 = 1 ∧
    ((start [(1, 0x80)]).reg 1).toNat / 128 = 1 ∧ ¬((start [(1, 0x7F)]).reg 1).toNat / 128 = 1 := by decide

theorem witness_FlagRegisterAsDestination :
    ((start [(15, 0xFF), (1, 0x01)]).reg regF).toNat + ((start [(15, 0xFF), (1, 0x01)]).reg 1).toNat > 255 ∧
    ((start [(15, 0xFE), (1, 0x01)]).reg regF).toNat + ((start [(15, 0xFE), (1, 0x01)]).reg 1).toNat ≤ 255 := by decide

theorem witness_StoreDecimalDigits : (startI 0x0FFD []).I.toNat + 2 ≤ 4095 ∧ (startI 0x0FFE []).I.toNat + 2 > 4095 := by decide

theorem witness_StoreRegisters : (startI 0x0FF0 []).I.toNat + (15 : Reg).val ≤ 4095 ∧
    (startI 0x0FF1 []).I.toNat + (15 : Reg).val > 4095 := by decide

theorem witness_LoadRegisters : (startI 0x0FFF []).I.toNat + (0 : Reg).val ≤ 4095 ∧
    (startI 0x0FFF []).I.toNat + (1 : Reg).val > 4095 := by decide

theorem witness_StoreLoadRoundTrip : (startI 0x0400 [(0, 0xDE), (3, 0xEF)]).I.toNat + (3 : Reg).val ≤ 4095 := by decide

/-- FX55 at `pc0 + 2` in the last slot that leaves room for the next fetch. -/
theorem witness_StoreSeenByNextFetch : 1 ≤ (1 : Reg).val ∧ ({ startI 0x0FFE [] with pc := 0x0FFC } : State).I = ({ startI 0x0FFE [] with pc := 0x0FFC } : State).pc + 2 ∧
    ({ startI 0x0FFE [] with pc := 0x0FFC } : State).pc.toNat + 2 + (1 : Reg).val ≤ 4095 := by decide

/-- FX33 and FX55 over the next instruction: byte 0 of the store under its high byte and byte 1 under its low one; a store whose last byte is
the high byte and leaves the low one alone; one whose first byte is the low byte and leaves the high one alone. -/
theorem witness_StoreSeenByNextFetch_covers :
    ((startI 0x0202 []).I.toNat + 2 ≤ 4095 ∧ (startI 0x0202 []).pc.toNat + 3 ≤ 4095 ∧
      (startI 0x0202 []).I.toNat + 0 = (startI 0x0202 []).pc.toNat + 2 ∧ (startI 0x0202 []).I.toNat + 1 = (startI 0x0202 []).pc.toNat + 3) ∧
    ((startI 0x0200 []).I.toNat + 2 = (startI 0x0200 []).pc.toNat + 2 ∧
      ¬((startI 0x0200 []).I.toNat ≤ (startI 0x0200 []).pc.toNat + 3 ∧
        (startI 0x0200 []).pc.toNat + 3 < (startI 0x0200 []).I.toNat + 3)) ∧
    ((startI 0x0203 []).I.toNat + 0 = (startI 0x0203 []).pc.toNat + 3 ∧
      ¬((startI 0x0203 []).I.toNat ≤ (startI 0x0203 []).pc.toNat + 2 ∧
        (startI 0x0203 []).pc.toNat + 2 < (startI 0x0203 []).I.toNat + 3)) := by decide

/-- A one-row sprite with its two outer bits set, at (63, 31), over a lit and an unlit pixel. -/
def spriteState : State := poke 0x300 [0x81] (light [(63, 31)] (startI 0x0300 [(0, 0x3F), (1, 0x1F)]))

theorem spriteState_covers : SpriteCovers spriteState 0 1 1 63 31 :=
  ⟨0, 0, by decide, by decide, by decide, by decide, by decide⟩

theorem spriteState_covers_wrapped : SpriteCovers spriteState 0 1 1 6 31 :=
  ⟨0, 7, by decide, by decide, by decide, by decide, by decide⟩

theorem spriteState_not_covers : ¬SpriteCovers spriteState 0 1 1 0 0 := by
  rintro ⟨row, col, hr, -, -, -, hy⟩
  have : row = 0 := by omega
  subst this
  revert hy
  decide

/-- Both bounds clauses at their limits; a covered pixel that is 1, one that is 0, and one that is not covered. -/
theorem witness_DrawComposesPixelwise :
    ((0 : Fin 16).val = 0 ∧ (startI 0x0FF1 []).I.toNat + (15 : Fin 16).val - 1 ≤ 4095 ∧
      0 < (1 : Fin 16).val ∧ (startI 0x1000 []).I.toNat + (1 : Fin 16).val - 1 > 4095) ∧
    (SpriteCovers spriteState 0 1 1 63 31 ∧ Grid.pixel spriteState.P 63 31 = true) ∧
    (SpriteCovers spriteState 0 1 1 6 31 ∧ Grid.pixel spriteState.P 6 31 = false) ∧ ¬SpriteCovers spriteState 0 1 1 0 0 :=
  ⟨by decide, ⟨spriteState_covers, by decide⟩, ⟨spriteState_covers_wrapped, by decide⟩, spriteState_not_covers⟩

/-- No covered pixel is 1: the other collision clause. -/
theorem witness_DrawComposesPixelwise_free : ∀ px py, SpriteCovers (startI 0x0300 []) 0 1 1 px py →
    Grid.pixel (startI 0x0300 []).P px py = false := by
  intro px py _
  exact Grid.pixel_blank px py

theorem witness_DrawTwiceRestores : (0 : Reg) ≠ regF ∧ (1 : Reg) ≠ regF ∧
    ∃ t u, exec (.drw 0 1 1) spriteState = .next t ∧ exec (.drw 0 1 1) t = .next u :=
  ⟨by decide, by decide, _, _, rfl, rfl⟩

theorem witness_DrawDependsOnWrappedCoordinates : 255 % 64 = 63 % 64 ∧ 255 % 32 = 31 % 32 := by decide

theorem witness_DirtySetByEveryDraw : (∃ t, exec .cls State.reset = .next t) ∧ (∃ t, exec (.drw 0 0 0) State.reset = .next t) ∧
    ∃ t, exec (.jp 0x300) State.reset = .next t := ⟨⟨_, rfl⟩, ⟨_, rfl⟩, ⟨_, rfl⟩⟩

theorem witness_RandomByteMasked : (0x0F : Byte).getLsbD 4 = false ∧ (3 : Reg) ≠ 2 := by decide

theorem witness_KeySkips : (10 : Key).val = ((start [(2, 0x1A)]).reg 2).toNat % 16 ∧
    (hold [10] (start [(2, 0x1A)])).keyDown 10 = true ∧ (start [(2, 0x1A)]).keyDown 10 = false := by decide

theorem witness_KeyWait : (∀ k, State.reset.keyDown k = false) ∧
    ((hold [7, 3] State.reset).keyDown 3 = true ∧ ∀ j, j < 3 → (hold [7, 3] State.reset).keyDown j = false) ∧
    (hold [0] State.reset).keyDown 0 = true ∧ ∀ j, j < 0 → (hold [0] State.reset).keyDown j = false := by decide

theorem witness_KeysWriteOverwritesAll : ∃ t, exec (.skp 2) (hold [5] (start [(2, 5)])) = .next t := ⟨_, rfl⟩

/-- `DIRTY` set, by an operation of the host and by a `Cycle`. -/
theorem witness_DirtyAckClearsOnlyDirty : HostOp.tick ≠ .dirtyAck ∧ HostOp.tick ≠ .reset ∧ HostOp.cycle ≠ .dirtyAck ∧ HostOp.cycle ≠ .reset ∧
    (∃ t, perform .tick { State.reset with DIRTY := true } = .next t) ∧
    ∃ t, perform .cycle (poke 0x200 [0x60, 0x05] { State.reset with DIRTY := true }) = .next t :=
  ⟨by decide, by decide, by decide, by decide, ⟨_, rfl⟩, _, rfl⟩

theorem witness_TickSaturates : 0 < ({ State.reset with DT := 1, ST := 255 } : State).DT.toNat ∧
    0 < ({ State.reset with DT := 1, ST := 255 } : State).ST.toNat ∧ State.reset.DT.toNat = 0 ∧ State.reset.ST.toNat = 0 := by decide

theorem witness_LoadPlacesBytes : State.reset.fresh = true ∧ 0xFFE + [(0x12 : Byte), 0x00].length ≤ 4096 ∧
    0xFFF + [(0x12 : Byte), 0x00].length > 4096 ∧ 4096 + ([] : List Byte).length ≤ 4096 ∧ 4097 + ([] : List Byte).length > 4096 ∧
    (running []).fresh = false := by decide

theorem witness_BootPlacesFontAndProgram : (∃ boot, bootAgenda Config.customaryFont [0x12, 0x00] (Vector.replicate 16 false) = some boot ∧
    ({ stoppedState with agenda := boot ++ [.cycle] } : State).agenda = boot ++ [.cycle]) ∧ Config.customaryFont.length ≤ 80 :=
  ⟨⟨_, rfl, rfl⟩, by decide⟩

theorem witness_AccessMatrix : ∃ t, exec (.stRegs 15) (startI 0x0FF0 []) = .next t := ⟨_, rfl⟩

/-- VF changes as a side effect, as a named destination, and by a draw. -/
theorem witness_FlagSideEffects :
    gives (exec (.sub 1 2) (start [(1, 2), (2, 1)])) (fun t => t.reg regF != (start [(1, 2), (2, 1)]).reg regF) = true ∧
    gives (exec (.ldImm 15 7) State.reset) (fun t => t.reg regF != State.reset.reg regF) = true ∧
    gives (exec (.drw 0 1 1) spriteState) (fun t => t.reg regF != spriteState.reg regF) = true ∧ (1 : Reg) ≠ regF := by decide

/-- A storing step from canonical memory; and a `Load` step. -/
theorem witness_StepKeepsMemoryCanonical :
    (Memory.wf (poke 0x200 [0xF1, 0x55] (startI 0x0400 [(0, 0x11)])).M = true ∧
      ∃ t, step (poke 0x200 [0xF1, 0x55] (startI 0x0400 [(0, 0x11)])) = .next t) ∧
    ∃ t, step { State.reset with agenda := [.load 0xFFE [0x12, 0x34]] } = .next t :=
  ⟨⟨by decide, _, rfl⟩, _, rfl⟩

/-- A taken skip in the last slot, which leaves `pc` at its largest but for BNNN, with a live return address of 4096. -/
def lastSlot : State := poke 0xFFE [0x33, 0x2A] { start [(3, 0x2A)] with pc := 0x0FFE, SP := 1, STK := State.reset.STK.set 0 0x1000 }

theorem witness_StepKeepsPcBounded : (lastSlot.pc.toNat ≤ 0x10FE ∧ ∀ k : Fin 48, k.val < lastSlot.SP.val → lastSlot.STK[k].toNat ≤ 4096) ∧
    ∃ t, step lastSlot = .next t := ⟨by decide, _, rfl⟩

theorem witness_DeadStackSlotsUnobservable :
    SameLiveStack lastSlot { lastSlot with STK := lastSlot.STK.set 1 0xBEEF } ∧ ∃ t, step lastSlot = .next t :=
  ⟨⟨rfl, by decide⟩, _, rfl⟩

theorem witness_DeadStackSlotsUnobservable_stops :
    SameLiveStack { State.reset with pc := 0x0FFF } { State.reset with pc := 0x0FFF, STK := State.reset.STK.set 0 0xBEEF } ∧
    step { State.reset with pc := 0x0FFF } = .fault (.fetchOutOfBounds 0x0FFF) ∧
    step { State.reset with fresh := false, agenda := [.load 0 []] } = .refused .loadAfterFirstCycle :=
  ⟨⟨rfl, by decide⟩, rfl, rfl⟩

theorem witness_DirtyAndSoundUnreadable : SameButDirtyAndSound State.reset { State.reset with DIRTY := true, ST := 9 } ∧
    (∃ t, exec (.ldVxDt 1) State.reset = .next t) ∧ exec .ret State.reset = .fault (.stackUnderflow 0x0200 0x00EE) :=
  ⟨rfl, ⟨_, rfl⟩, rfl⟩

theorem witness_TickCommutesWithOtherInstructions : (∀ x, Instr.addReg 1 2 ≠ .ldVxDt x ∧ Instr.addReg 1 2 ≠ .ldDtVx x ∧
    Instr.addReg 1 2 ≠ .ldStVx x) ∧ ∃ t, exec (.addReg 1 2) { State.reset with DT := 1 } = .next t := ⟨by decide, _, rfl⟩

theorem witness_SelfJumpIsFixedPoint :
    (poke 0x200 [0x12, 0x00] (running [])).atSelfJump ∧ (poke 0x200 [0x12, 0x00] (running [])).agenda = [] ∧
    (poke 0x200 [0x12, 0x00] (running [])).report = none ∧ (poke 0x200 [0x12, 0x00] (running [])).fresh = false :=
  ⟨⟨0x200, rfl, rfl⟩, rfl, rfl, rfl⟩

end Sys2Proof.Tests
end

/-! ### PROOFS. The fetch (20_memory.md section 3) -/

namespace Sys2Proof.Proofs
open Sys2Proof.Machine

/-- Settles O6: with both bytes in memory the fetch answers `M[pc0] ++ M[pc0 + 1]` (`State.fetchWord_some`), and the two bytes of such
a word are its high and its low byte. -/
theorem fetchIsBigEndian : Obligations.FetchIsBigEndian := by
  intro s inMemory
  have hpc : s.pc.toNat ≤ 4094 := by omega
  exact ⟨_, (s.fetchWord_some _).mpr ⟨hpc, rfl⟩, highByte_append _ _, lowByte_append _ _⟩

end Sys2Proof.Proofs

/-! ### PROOFS. The worked encodings (30_encoding.md R91) -/

namespace Sys2Proof.Proofs

/-- A word that decodes back to the instruction it encodes makes the stored bytes do so, whatever follows them. -/
theorem decode_encodeBytes_append {i : Instr} (h : decodeWord (encode i) = .ok i) (rest : List Byte) :
    decode (encodeBytes i ++ rest) = .ok (i, rest) := by
  change decode (highByte (encode i) :: lowByte (encode i) :: rest) = _
  rw [decode, highByte_append_lowByte, h]

theorem decodeWord_encode_ldImm (x : Reg) (nn : Byte) : decodeWord (encode (.ldImm x nn)) = .ok (.ldImm x nn) := by
  simp [decodeWord, encode]

theorem decodeWord_encode_drw (x y : Reg) (n : Fin 16) : decodeWord (encode (.drw x y n)) = .ok (.drw x y n) := by
  simp [decodeWord, encode]

theorem decodeWord_encode_ldF (x : Reg) : decodeWord (encode (.ldF x)) = .ok (.ldF x) := by
  simp [decodeWord, decodeGroupF, encode]

/-- Settles O5: the written bytes are `encodeBytes` of the four instructions, so each decodes as every instruction of its form does; the
words are computed. -/
theorem workedEncodingsDecode : Obligations.WorkedEncodingsDecode :=
  ⟨decode_encodeBytes_append (decodeWord_encode_ldImm 0 0x05) [], rfl,
   decode_encodeBytes_append (decodeWord_encode_ldImm 0 0x0A) [], rfl,
   decode_encodeBytes_append (decodeWord_encode_ldF 0) [], rfl,
   decode_encodeBytes_append (decodeWord_encode_drw 0 0 5) [], rfl⟩

end Sys2Proof.Proofs

/-! ### PROOFS. Words and fields: what the decoder accepts is the word the encoder writes (30_encoding.md R82, R84) -/

namespace Sys2Proof.Proofs

theorem packNNN_eq_iff {op : BitVec 4} {nnn : BitVec 12} {w : Word} :
    packNNN op nnn = w ↔ fieldOp w = op ∧ fieldNNN w = nnn := by
  constructor
  · rintro rfl; simp
  · rintro ⟨rfl, rfl⟩; exact packNNN_fields w

theorem packXNN_eq_iff {op : BitVec 4} {x : Reg} {nn : Byte} {w : Word} :
    packXNN op x nn = w ↔ fieldOp w = op ∧ fieldX w = x ∧ fieldNN w = nn := by
  constructor
  · rintro rfl; simp
  · rintro ⟨rfl, rfl, rfl⟩; exact packXNN_fields w

theorem packXYN_eq_iff {op : BitVec 4} {x y : Reg} {n : BitVec 4} {w : Word} :
    packXYN op x y n = w ↔ fieldOp w = op ∧ fieldX w = x ∧ fieldY w = y ∧ fieldN w = n.toFin := by
  constructor
  · rintro rfl; simp
  · rintro ⟨rfl, rfl, rfl, hn⟩
    rw [show n = BitVec.ofFin (w := 4) (fieldN w) from BitVec.eq_of_toFin_eq hn.symm]
    exact packXYN_fields w

/-- Group 8 accepts only the word its answer is written as. -/
theorem encode_of_decodeGroup8 {w : Word} {i : Instr} (hop : fieldOp w = 0x8) (h : decodeGroup8 w = .ok i) :
    encode i = w := by
  unfold decodeGroup8 at h
  split at h
  case h_10 => cases h
  all_goals
    cases h
    exact packXYN_eq_iff.mpr ⟨hop, rfl, rfl, Fin.ext ‹(fieldN w).val = _›⟩

/-- Group F accepts only the word its answer is written as. -/
theorem encode_of_decodeGroupF {w : Word} {i : Instr} (hop : fieldOp w = 0xF) (h : decodeGroupF w = .ok i) :
    encode i = w := by
  unfold decodeGroupF at h
  split_ifs at h
  all_goals
    cases h
    exact packXNN_eq_iff.mpr ⟨hop, rfl, ‹fieldNN w = _›⟩

/-- The decoder accepts only the word its answer is written as: each group of R84 answers with the word's own fields.  Case `h_k` is
`OP` = `k - 1`. -/
theorem encode_of_decodeWord {w : Word} {i : Instr} (h : decodeWord w = .ok i) : encode i = w := by
  unfold decodeWord at h
  split at h <;> rename_i hop
  case h_1 =>
    split_ifs at h with hw hw
    all_goals
      cases h
      exact hw.symm
  case h_2 | h_3 | h_11 | h_12 =>
    cases h
    exact packNNN_eq_iff.mpr ⟨BitVec.eq_of_toNat_eq hop, rfl⟩
  case h_4 | h_5 | h_7 | h_8 | h_13 =>
    cases h
    exact packXNN_eq_iff.mpr ⟨BitVec.eq_of_toNat_eq hop, rfl, rfl⟩
  case h_6 | h_10 =>
    split_ifs at h with hn
    cases h
    exact packXYN_eq_iff.mpr ⟨BitVec.eq_of_toNat_eq hop, rfl, rfl, hn⟩
  case h_9 => exact encode_of_decodeGroup8 (BitVec.eq_of_toNat_eq hop) h
  case h_14 =>
    cases h
    exact packXYN_eq_iff.mpr ⟨BitVec.eq_of_toNat_eq hop, rfl, rfl, rfl⟩
  case h_15 =>
    split_ifs at h with hnn hnn
    all_goals
      cases h
      exact packXNN_eq_iff.mpr ⟨BitVec.eq_of_toNat_eq hop, rfl, hnn⟩
  case h_16 =>
    have hlt := (fieldOp w).isLt
    simp only [imp_false] at *
    have hF : (fieldOp w).toNat = 0xF := by omega
    exact encode_of_decodeGroupF (BitVec.eq_of_toNat_eq hF) h

end Sys2Proof.Proofs

/-! ### PROOFS. Jumps and skips (40_control.md) -/

namespace Sys2Proof.Proofs
open Sys2Proof.Machine Sys2Proof.Claims

/-- A form whose words are `packNNN op`, and which the decoder reads back, is what exactly the words with that `OP` decode to. -/
theorem decodesNNN_of_encode {op : BitVec 4} {f : BitVec 12 → Instr} (hword : ∀ nnn, encode (f nnn) = packNNN op nnn)
    (hback : ∀ nnn, decodeWord (encode (f nnn)) = .ok (f nnn)) : DecodesNNN op f := by
  intro w nnn
  change _ ↔ fieldOp w = op ∧ fieldNNN w = nnn
  rw [← packNNN_eq_iff, ← hword]
  exact ⟨encode_of_decodeWord, fun h => h ▸ hback nnn⟩

/-- A form whose words are `packXNN op`, and which the decoder reads back, is what exactly the words with that `OP` decode to. -/
theorem decodesXNN_of_encode {op : BitVec 4} {f : Reg → Byte → Instr} (hword : ∀ x nn, encode (f x nn) = packXNN op x nn)
    (hback : ∀ x nn, decodeWord (encode (f x nn)) = .ok (f x nn)) : DecodesXNN op f := by
  intro w x nn
  change _ ↔ fieldOp w = op ∧ (fieldX w).val = x.val ∧ fieldNN w = nn
  rw [← Fin.ext_iff, ← packXNN_eq_iff, ← hword]
  exact ⟨encode_of_decodeWord, fun h => h ▸ hback x nn⟩

theorem unchangedExcept_setPc (s : State) (target : Word) : UnchangedExcept [.pc] s (s.setPc target) := by
  intro p hp
  cases p
  case pc => simp at hp
  all_goals simp [Part.same]

/-- A skip is one write of `pc`. -/
theorem skipIf_eq_setPc (s : State) (c : Bool) : s.skipIf c = s.setPc (if c then s.pc + 4 else s.pc + 2) := by
  cases c <;> rfl

/-- An instruction that is a skip on a test deciding `p` skips exactly if `p`. -/
theorem skipsIff_of_exec {i : Instr} {s : State} {c : Bool} {p : Prop} (hexec : exec i s = .next (s.skipIf c))
    (htest : c = true ↔ p) : SkipsIff i s p := by
  refine ⟨s.skipIf c, hexec, fun hp => ?_, fun hp => ?_, ?_⟩
  · simp [htest.mpr hp]
  · simp [mt htest.mp hp]
  · rw [skipIf_eq_setPc]; exact unchangedExcept_setPc s _

theorem decodesNNN_jp : DecodesNNN 0x1 .jp :=
  decodesNNN_of_encode (fun _ => rfl) fun _ => by simp [decodeWord, encode]

theorem decodesNNN_jpV0 : DecodesNNN 0xB .jpV0 :=
  decodesNNN_of_encode (fun _ => rfl) fun _ => by simp [decodeWord, encode]

theorem decodesXNN_seImm : DecodesXNN 0x3 .seImm :=
  decodesXNN_of_encode (fun _ _ => rfl) fun _ _ => by simp [decodeWord, encode]

theorem decodesXNN_sneImm : DecodesXNN 0x4 .sneImm :=
  decodesXNN_of_encode (fun _ _ => rfl) fun _ _ => by simp [decodeWord, encode]

/-- BNNN's sum is at most 0xFF + 0xFFF, so 16 bits hold it (40_control.md R108). -/
theorem toNat_wideReg_add_addressOperand (s : State) (x : Reg) (nnn : BitVec 12) :
    (s.wideReg x + addressOperand nnn).toNat = (s.reg x).toNat + nnn.toNat := by
  have hreg := (s.reg x).isLt
  have hnnn := nnn.isLt
  rw [BitVec.toNat_add, State.toNat_wideReg, toNat_addressOperand]
  exact Nat.mod_eq_of_lt (by omega)

/-- Settles O17: 1NNN is one write of `pc`. -/
theorem jumpSetsPc : Obligations.JumpSetsPc :=
  ⟨decodesNNN_jp, fun nnn s => ⟨_, rfl, toNat_addressOperand nnn, unchangedExcept_setPc s _⟩⟩

/-- Settles O19: each is `skipIf` on its own test of V[X]. -/
theorem skipsOnImmediate : Obligations.SkipsOnImmediate :=
  ⟨decodesXNN_seImm, decodesXNN_sneImm, fun _ _ _ =>
    ⟨skipsIff_of_exec rfl beq_iff_eq, skipsIff_of_exec rfl bne_iff_ne⟩⟩

/-- Settles O21: BNNN is one write of `pc`, and the sum does not wrap. -/
theorem indexedJumpAddsV0 : Obligations.IndexedJumpAddsV0 :=
  ⟨decodesNNN_jpV0, fun nnn s => ⟨_, rfl, toNat_wideReg_add_addressOperand s 0 nnn, unchangedExcept_setPc s _⟩⟩

end Sys2Proof.Proofs

/-! ### PROOFS. Register loads and immediate addition (41_alu.md) -/

namespace Sys2Proof.Proofs
open Sys2Proof.Machine Sys2Proof.Claims

theorem unchangedExcept_setReg_advance (s : State) (x : Reg) (v : Byte) :
    UnchangedExcept [.regs, .pc] s (s.setReg x v).advance := by
  intro p hp
  cases p
  case regs | pc => simp at hp
  all_goals simp [Part.same]

/-- An instruction that is one register write and `pc <- pc0 + 2` writes that register and nothing else, whichever register it is. -/
theorem writesReg_of_exec {i : Instr} {s : State} {x : Reg} {v : Byte} {n : Nat}
    (hexec : exec i s = .next (s.setReg x v).advance) (hvalue : v.toNat = n) : WritesReg i s x n := by
  refine ⟨_, hexec, ?_, fun r hr => ?_, rfl, unchangedExcept_setReg_advance s x v⟩
  · simpa using hvalue
  · simp [hr]

theorem decodesXNN_ldImm : DecodesXNN 0x6 .ldImm :=
  decodesXNN_of_encode (fun _ _ => rfl) decodeWord_encode_ldImm

theorem decodesXNN_addImm : DecodesXNN 0x7 .addImm :=
  decodesXNN_of_encode (fun _ _ => rfl) fun _ _ => by simp [decodeWord, encode]

/-- Settles O23: each is one register write, 7XNN's of the byte sum, which is the sum modulo 256 (41_alu.md R121, R122). -/
theorem loadAndAddImmediate : Obligations.LoadAndAddImmediate :=
  ⟨decodesXNN_ldImm, decodesXNN_addImm, fun x nn s =>
    ⟨writesReg_of_exec rfl rfl, writesReg_of_exec rfl (BitVec.toNat_add (s.reg x) nn)⟩⟩

end Sys2Proof.Proofs

/-! ### PROOFS. Setting the index pointer (42_index_memory.md section 2) -/

namespace Sys2Proof.Proofs
open Sys2Proof.Machine Sys2Proof.Claims

theorem unchangedExcept_setI_advance (s : State) (v : Word) : UnchangedExcept [.index, .pc] s (s.setI v).advance := by
  intro p hp
  cases p
  case index | pc => simp at hp
  all_goals simp [Part.same]

/-- An instruction that is one write of `I` and `pc <- pc0 + 2` writes `I` and nothing else. -/
theorem writesIndex_of_exec {i : Instr} {s : State} {v : Word} {n : Nat}
    (hexec : exec i s = .next (s.setI v).advance) (hvalue : v.toNat = n) : WritesIndex i s n :=
  ⟨_, hexec, hvalue, rfl, unchangedExcept_setI_advance s v⟩

theorem decodesNNN_ldI : DecodesNNN 0xA .ldI :=
  decodesNNN_of_encode (fun _ => rfl) fun _ => by simp [decodeWord, encode]

/-- Settles O29: ANNN is one write of `I`, and zero-extension keeps the operand's value (42_index_memory.md R141). -/
theorem loadIndex : Obligations.LoadIndex :=
  ⟨decodesNNN_ldI, fun nnn _ => writesIndex_of_exec rfl (toNat_addressOperand nnn)⟩

end Sys2Proof.Proofs

/-! ### PROOFS. Clearing the display (43_display.md section 2) -/

namespace Sys2Proof.Proofs
open Sys2Proof.Machine

/-- Only 0x00E0 decodes to 00E0: the decoder accepts only the word its answer is written as. -/
theorem decodeWord_eq_cls_iff {w : Word} : decodeWord w = .ok .cls ↔ w = 0x00E0 := by
  constructor
  · intro h
    exact (encode_of_decodeWord h).symm
  · rintro rfl
    rfl

/-- Replacing the whole grid, setting `DIRTY` and advancing `pc` touch nothing else, VF among it. -/
theorem unchangedExcept_setGrid_advance (s : State) (g : Grid) :
    UnchangedExcept [.pixels, .dirty, .pc] s { s with P := g, DIRTY := true }.advance := by
  intro p hp
  cases p
  case pixels | dirty | pc => simp at hp
  case regs | slots | keys | memory => exact fun _ => rfl
  all_goals rfl

/-- Settles O37: 00E0 replaces the grid by the blank one, whose pixels are all 0 (43_display.md R161). -/
theorem clearDisplay : Obligations.ClearDisplay :=
  ⟨fun _ => decodeWord_eq_cls_iff, fun s => ⟨_, rfl, Grid.pixel_blank, rfl, rfl, unchangedExcept_setGrid_advance s _⟩⟩

end Sys2Proof.Proofs

/-! ### PROOFS. Keys and timers (44_timers_keys_random.md) -/

namespace Sys2Proof.Proofs
open Sys2Proof.Machine Sys2Proof.Claims

/-- A form whose words are `packXNN op` with a fixed low byte, and which the decoder reads back, is what exactly the words with that `OP`
and that low byte decode to. -/
theorem decodesX_of_encode {op : BitVec 4} {low : Byte} {f : Reg → Instr} (hword : ∀ x, encode (f x) = packXNN op x low)
    (hback : ∀ x, decodeWord (encode (f x)) = .ok (f x)) : DecodesX op low f := by
  intro w x
  change _ ↔ fieldOp w = op ∧ (fieldX w).val = x.val ∧ fieldNN w = low
  rw [← Fin.ext_iff, ← packXNN_eq_iff, ← hword]
  exact ⟨encode_of_decodeWord, fun h => h ▸ hback x⟩

theorem decodesX_skp : DecodesX 0xE 0x9E .skp :=
  decodesX_of_encode (fun _ => rfl) fun _ => by simp [decodeWord, encode]

theorem decodesX_sknp : DecodesX 0xE 0xA1 .sknp :=
  decodesX_of_encode (fun _ => rfl) fun _ => by simp [decodeWord, encode]

theorem decodesX_ldVxK : DecodesX 0xF 0x0A .ldVxK :=
  decodesX_of_encode (fun _ => rfl) fun _ => by simp [decodeWord, decodeGroupF, encode]

theorem decodesX_ldVxDt : DecodesX 0xF 0x07 .ldVxDt :=
  decodesX_of_encode (fun _ => rfl) fun _ => by simp [decodeWord, decodeGroupF, encode]

theorem decodesX_ldDtVx : DecodesX 0xF 0x15 .ldDtVx :=
  decodesX_of_encode (fun _ => rfl) fun _ => by simp [decodeWord, decodeGroupF, encode]

theorem decodesX_ldStVx : DecodesX 0xF 0x18 .ldStVx :=
  decodesX_of_encode (fun _ => rfl) fun _ => by simp [decodeWord, decodeGroupF, encode]

/-- A key number fits a register. -/
theorem toNat_ofNat_key (k : Key) : (BitVec.ofNat 8 k.val).toNat = k.val := by
  have := k.isLt
  rw [BitVec.toNat_ofNat, Nat.mod_eq_of_lt (by omega)]

theorem unchangedExcept_setDT_advance (s : State) (v : Byte) :
    UnchangedExcept [.delay, .pc] s { s with DT := v }.advance := by
  intro p hp
  cases p
  case delay | pc => simp at hp
  case regs | slots | keys | memory => exact fun _ => rfl
  case pixels => exact fun _ _ => rfl
  all_goals rfl

theorem unchangedExcept_setST_advance (s : State) (v : Byte) :
    UnchangedExcept [.sound, .pc] s { s with ST := v }.advance := by
  intro p hp
  cases p
  case sound | pc => simp at hp
  case regs | slots | keys | memory => exact fun _ => rfl
  case pixels => exact fun _ _ => rfl
  all_goals rfl

/-- Settles O43: each is `skipIf` on the level of the key that V[X] names, its value modulo 16 (`State.val_keyOf`). -/
theorem keySkips : Obligations.KeySkips := by
  refine ⟨decodesX_skp, decodesX_sknp, fun x s k hk => ?_⟩
  obtain rfl : k = s.keyOf x := Fin.ext (hk.trans (s.val_keyOf x).symm)
  exact ⟨skipsIff_of_exec rfl Iff.rfl, skipsIff_of_exec rfl (by simp)⟩

/-- Settles O44: the scan finds nothing when no key is pressed (`State.firstKey_none`), and else the least pressed key
(`State.firstKey_some`), which is one register write. -/
theorem keyWait : Obligations.KeyWait := by
  refine ⟨decodesX_ldVxK, fun x s => ⟨fun hnone => ?_, fun k hdown hleast => ?_⟩⟩
  · exact exec_ldVxK_none x s (s.firstKey_none.mpr hnone)
  · have hscan : s.firstKey = some k := (s.firstKey_some k).mpr ⟨hdown, hleast⟩
    exact writesReg_of_exec (exec_ldVxK_some x s k hscan) (toNat_ofNat_key k)

/-- Settles O45: FX07 is one register write, FX15 and FX18 are one write of their own timer. -/
theorem timerMoves : Obligations.TimerMoves :=
  ⟨decodesX_ldVxDt, decodesX_ldDtVx, decodesX_ldStVx, fun _ s =>
    ⟨writesReg_of_exec rfl rfl,
     ⟨_, rfl, rfl, rfl, unchangedExcept_setDT_advance s _⟩,
     ⟨_, rfl, rfl, rfl, unchangedExcept_setST_advance s _⟩⟩⟩

end Sys2Proof.Proofs

/-! ### PROOFS. The host's operations on keys and `DIRTY` (60_exceptions.md section 5) -/

namespace Sys2Proof.Proofs
open Sys2Proof.Machine

theorem unchangedExcept_keysWrite (s : State) (k : Vector Bool 16) : UnchangedExcept [.keys] s (s.keysWrite k) := by
  intro p hp
  cases p
  case keys => simp at hp
  all_goals simp [Part.same]

theorem unchangedExcept_dirtyAck (s : State) : UnchangedExcept [.dirty] s s.dirtyAck := by
  intro p hp
  cases p
  case dirty => simp at hp
  all_goals simp [Part.same]

/-- An instruction completes without touching what is for the host to change: it never writes the key flags (60_exceptions.md R217),
and it never clears `DIRTY` (R218), which 00E0 and DXYN set. -/
theorem exec_next_keys_dirty {i : Instr} {s t : State} (h : exec i s = .next t) :
    t.K = s.K ∧ (s.DIRTY = true → t.DIRTY = true) := by
  cases i
  case ret =>
    obtain ⟨_, rfl⟩ := (exec_ret_next s t).mp h
    simp
  case call nnn =>
    obtain ⟨_, rfl⟩ := (exec_call_next nnn s t).mp h
    simp
  case drw x y n =>
    obtain ⟨_, rfl⟩ := (exec_drw_next x y n s t).mp h
    simp
  case ldB x =>
    obtain ⟨_, rfl⟩ := (exec_ldB_next x s t).mp h
    simp
  case stRegs x =>
    obtain ⟨_, rfl⟩ := (exec_stRegs_next x s t).mp h
    simp
  case ldRegs x =>
    obtain ⟨_, rfl⟩ := (exec_ldRegs_next x s t).mp h
    simp
  case ldVxK x =>
    cases hscan : s.firstKey with
    | none =>
      cases (exec_ldVxK_none x s hscan).symm.trans h
      simp
    | some k =>
      cases (exec_ldVxK_some x s k hscan).symm.trans h
      simp
  all_goals
    cases h
    simp

/-- Equal key flags read alike, key by key. -/
theorem keyDown_eq_of_K_eq {s t : State} (h : t.K = s.K) (k : Key) : t.keyDown k = s.keyDown k := by
  rw [State.keyDown, State.keyDown, h]

/-- A `Load` answers a next state only inside its window and inside memory, and then writes memory only (70_reset_and_hazards.md R242). -/
theorem hostLoad_next {addr : Nat} {bytes : List Byte} {s t : State} :
    hostLoad addr bytes s = .next t ↔
      s.fresh = true ∧ loadWellFormed addr bytes = true ∧ { s with M := Memory.writeBytes s.M addr bytes } = t := by
  unfold hostLoad
  split_ifs with hfresh hload
  · simp [hfresh, hload]
  · simp [hload]
  · simp [hfresh]

/-- A `Cycle` does not clear `DIRTY`, whatever word it fetches: an instruction does not, and an unknown word changes `pc` and the report. -/
theorem cycle_next_dirty {s t : State} (h : cycle s = .next t) (hdirty : s.DIRTY = true) : t.DIRTY = true := by
  obtain ⟨-, w, -, hword⟩ := cycle_next s t h
  obtain ⟨i, -, hexec⟩ | ⟨-, rfl⟩ := executeWord_next w s.beginCycle t hword
  · exact (exec_next_keys_dirty hexec).2 hdirty
  · exact hdirty

/-- Settles O47: `KeysWrite` is one write of `K`, and no instruction writes `K` (`exec_next_keys_dirty`). -/
theorem keysWriteOverwritesAll : Obligations.KeysWriteOverwritesAll :=
  ⟨fun s k => ⟨_, rfl, s.keyDown_keysWrite k, unchangedExcept_keysWrite s k⟩,
   fun _ _ _ h => keyDown_eq_of_K_eq (exec_next_keys_dirty h).1⟩

/-- Settles O48: `DirtyAck` is one write of `DIRTY`; of the other operations only a `Reset` and a `Cycle` touch it, and the `Cycle` can
only set it (`cycle_next_dirty`). -/
theorem dirtyAckClearsOnlyDirty : Obligations.DirtyAckClearsOnlyDirty := by
  refine ⟨fun s => ⟨_, rfl, rfl, unchangedExcept_dirtyAck s⟩, fun op s t hack hreset h hdirty => ?_⟩
  cases op with
  | reset => exact absurd rfl hreset
  | dirtyAck => exact absurd rfl hack
  | cycle => exact cycle_next_dirty h hdirty
  | load addr bytes =>
    obtain ⟨-, -, rfl⟩ := hostLoad_next.mp h
    exact hdirty
  | tick | keysWrite _ | observe =>
    cases h
    exact hdirty

end Sys2Proof.Proofs

/-! ### PROOFS. Decoder, encoder and opcode map agree (30_encoding.md sections 2 to 5) -/

namespace Sys2Proof.Proofs
open Sys2Proof.Laws

/-- Every instruction's word decodes back to it: `OP` selects the group, and groups 8 and F read their low nibble and low byte. -/
theorem decodeWord_encode (i : Instr) : decodeWord (encode i) = .ok i := by
  cases i
  case cls | ret => rfl
  case ldReg | orReg | andReg | xorReg | addReg | sub | shr | subn | shl => simp [decodeWord, decodeGroup8, encode]
  case ldVxDt | ldVxK | ldDtVx | ldStVx | addI | ldF | ldB | stRegs | ldRegs => simp [decodeWord, decodeGroupF, encode]
  all_goals simp [decodeWord, encode]

theorem decodeWord_eq_ok_iff {w : Word} {i : Instr} : decodeWord w = .ok i ↔ encode i = w :=
  ⟨encode_of_decodeWord, fun h => h ▸ decodeWord_encode i⟩

/-- Settles O1: the two stored bytes make up `encode i` again, and `decodeWord` reads it back (`decodeWord_encode`). -/
theorem decodeEncodeRoundTrip : Obligations.DecodeEncodeRoundTrip := fun i rest =>
  decode_encodeBytes_append (decodeWord_encode i) rest

/-- Settles O2: each group of the decoder answers with the word's own fields (`encode_of_decodeWord`). -/
theorem encodeDecodeRoundTrip : Obligations.EncodeDecodeRoundTrip := fun _ _ => encode_of_decodeWord

theorem eq_unknownInstruction_of_decodeGroup8 {w : Word} {e : DecodeError} (h : decodeGroup8 w = .error e) :
    e = .unknownInstruction w := by
  unfold decodeGroup8 at h
  split at h
  all_goals cases h
  rfl

theorem eq_unknownInstruction_of_decodeGroupF {w : Word} {e : DecodeError} (h : decodeGroupF w = .error e) :
    e = .unknownInstruction w := by
  unfold decodeGroupF at h
  iterate 9
    split at h
    · cases h
  cases h
  rfl

/-- The one error of the decoder on a whole word is that this word is unknown (30_encoding.md R86).  Case `h_k` is `OP` = `k - 1`. -/
theorem eq_unknownInstruction_of_decodeWord {w : Word} {e : DecodeError} (h : decodeWord w = .error e) :
    e = .unknownInstruction w := by
  unfold decodeWord at h
  split at h
  case h_9 => exact eq_unknownInstruction_of_decodeGroup8 h
  case h_16 => exact eq_unknownInstruction_of_decodeGroupF h
  case h_1 | h_6 | h_10 | h_15 =>
    split_ifs at h
    cases h
    rfl
  all_goals cases h

/-! #### A row of the opcode map, as conditions on the fields of the word (30_encoding.md R85) -/

/-- Mask 0xF000 keeps `OP`. -/
theorem fieldOp_of_and_F000 {w p : Word} (h : w &&& 0xF000 = p) : (fieldOp w).toNat = p.toNat / 4096 := by
  rw [← h, ← toNat_fieldOp, ← packNNN_fields w, packNNN_and_F000, fieldOp_packNNN, fieldOp_packNNN]

/-- Mask 0xF00F keeps `OP` and the low nibble. -/
theorem fields_of_and_F00F {w p : Word} (h : w &&& 0xF00F = p) :
    (fieldOp w).toNat = p.toNat / 4096 ∧ (fieldN w).val = p.toNat % 16 := by
  rw [← h, ← toNat_fieldOp, ← val_fieldN, ← packXYN_fields w, packXYN_and_F00F]
  simp

/-- Mask 0xF0FF keeps `OP` and the low byte. -/
theorem fields_of_and_F0FF {w p : Word} (h : w &&& 0xF0FF = p) :
    (fieldOp w).toNat = p.toNat / 4096 ∧ (fieldNN w).toNat = p.toNat % 256 := by
  rw [← h, ← toNat_fieldOp, ← toNat_fieldNN, ← packXNN_fields w, packXNN_and_F0FF]
  simp

/-- `RowMatch`'s statement holds of every instruction. -/
theorem rowMatch (i : Instr) : RowMatch.Statement i := by
  cases i
  exacts [RowMatch.cls, RowMatch.ret, RowMatch.jp _, RowMatch.call _, RowMatch.seImm _ _, RowMatch.sneImm _ _, RowMatch.seReg _ _,
    RowMatch.ldImm _ _, RowMatch.addImm _ _, RowMatch.ldReg _ _, RowMatch.orReg _ _, RowMatch.andReg _ _, RowMatch.xorReg _ _,
    RowMatch.addReg _ _, RowMatch.sub _ _, RowMatch.shr _ _, RowMatch.subn _ _, RowMatch.shl _ _, RowMatch.sneReg _ _, RowMatch.ldI _,
    RowMatch.jpV0 _, RowMatch.rnd _ _, RowMatch.drw _ _ _, RowMatch.skp _, RowMatch.sknp _, RowMatch.ldVxDt _, RowMatch.ldVxK _,
    RowMatch.ldDtVx _, RowMatch.ldStVx _, RowMatch.addI _, RowMatch.ldF _, RowMatch.ldB _, RowMatch.stRegs _, RowMatch.ldRegs _]

/-- One instruction of each row of the opcode map, in its order. -/
def rowSamples : List Instr :=
  [.cls, .ret, .jp 0, .call 0, .seImm 0 0, .sneImm 0 0, .seReg 0 0, .ldImm 0 0, .addImm 0 0, .ldReg 0 0, .orReg 0 0, .andReg 0 0,
   .xorReg 0 0, .addReg 0 0, .sub 0 0, .shr 0 0, .subn 0 0, .shl 0 0, .sneReg 0 0, .ldI 0, .jpV0 0, .rnd 0 0, .drw 0 0 0,
   .skp 0, .sknp 0, .ldVxDt 0, .ldVxK 0, .ldDtVx 0, .ldStVx 0, .addI 0, .ldF 0, .ldB 0, .stRegs 0, .ldRegs 0]

theorem opcodeRows_eq_map_row : opcodeRows = rowSamples.map RowMatch.row := rfl

/-- A word that selects an instruction's row decodes to an instruction of that row: the row's mask fixes exactly the fields on which
the decoder's dispatch turns. -/
theorem decodeWord_of_selects_row {i : Instr} {w : Word} (h : (RowMatch.row i).selects w = true) :
    ∃ j, decodeWord w = .ok j ∧ RowMatch.row j = RowMatch.row i := by
  rw [OpcodeRow.selects, beq_iff_eq] at h
  cases i
  case cls | ret =>
    obtain rfl : w = _ := BitVec.and_allOnes.symm.trans h
    refine ⟨_, rfl, ?_⟩
    rfl
  case jp | call | seImm | sneImm | ldImm | addImm | ldI | jpV0 | rnd | drw =>
    have hop := fieldOp_of_and_F000 h
    simp [decodeWord, hop, RowMatch.row]
  case seReg | ldReg | orReg | andReg | xorReg | addReg | sub | shr | subn | shl | sneReg =>
    obtain ⟨hop, hn⟩ := fields_of_and_F00F h
    simp [decodeWord, decodeGroup8, hop, hn, Fin.ext_iff, RowMatch.row]
  case skp | sknp | ldVxDt | ldVxK | ldDtVx | ldStVx | addI | ldF | ldB | stRegs | ldRegs =>
    obtain ⟨hop, hnn⟩ := fields_of_and_F0FF h
    simp [decodeWord, decodeGroupF, hop, hnn, BitVec.toNat_eq, RowMatch.row]

/-- A row of the opcode map selects exactly the words that decode to an instruction of that row. -/
theorem selects_iff_decodeWord {r : OpcodeRow} (hr : r ∈ opcodeRows) {w : Word} :
    r.selects w = true ↔ ∃ i, decodeWord w = .ok i ∧ RowMatch.row i = r := by
  constructor
  · intro h
    rw [opcodeRows_eq_map_row, List.mem_map] at hr
    obtain ⟨i, -, rfl⟩ := hr
    exact decodeWord_of_selects_row h
  · rintro ⟨i, hi, rfl⟩
    obtain rfl := decodeWord_eq_ok_iff.mp hi
    exact beq_iff_eq.mpr (rowMatch i).2

theorem wordWellFormed_iff {w : Word} : wordWellFormed w = true ↔ ∃ i, decodeWord w = .ok i := by
  rw [wordWellFormed, List.any_eq_true]
  constructor
  · rintro ⟨r, hr, h⟩
    obtain ⟨i, hi, -⟩ := (selects_iff_decodeWord hr).mp h
    exact ⟨i, hi⟩
  · rintro ⟨i, hi⟩
    exact ⟨_, (rowMatch i).1, (selects_iff_decodeWord (rowMatch i).1).mpr ⟨i, hi, rfl⟩⟩

theorem decodeWord_eq_unknown_iff {w : Word} :
    decodeWord w = .error (.unknownInstruction w) ↔ wordWellFormed w = false := by
  rw [← Bool.not_eq_true, wordWellFormed_iff]
  cases h : decodeWord w with
  | ok i => simp
  | error e => simp [eq_unknownInstruction_of_decodeWord h]

/-- Settles O3: a row selects a word exactly if the word decodes to an instruction of the row, and the decoder's one error names the
word. -/
theorem decoderMatchesOpcodeMap : Obligations.DecoderMatchesOpcodeMap := fun _ =>
  ⟨wordWellFormed_iff, decodeWord_eq_unknown_iff.symm⟩

/-- Settles O4: both rows are the row of the one instruction that the word decodes to. -/
theorem opcodeRowsDisjoint : Obligations.OpcodeRowsDisjoint := by
  intro r hr r' hr' w h h'
  obtain ⟨i, hi, rfl⟩ := (selects_iff_decodeWord hr).mp h
  obtain ⟨j, hj, rfl⟩ := (selects_iff_decodeWord hr').mp h'
  cases hi.symm.trans hj
  rfl

end Sys2Proof.Proofs

/-! ### PROOFS. What an instruction that completes has done, and the two invariants of memory and `pc` (10_state.md, 20_memory.md) -/

namespace Sys2Proof.Proofs
open Sys2Proof.Machine

/-- What is known of an instruction that took `s` to `t`: the six that can fail passed their check; FX0A found a key or changed nothing;
and for every other one `t` is the state its meaning answers. -/
def Completed (s t : State) : Instr → Prop
  | .ret => ∃ h : 0 < s.SP.val,
      t = ({ s with SP := ⟨s.SP.val - 1, by omega⟩ } : State).setPc (s.STK[s.SP.val - 1]'(by omega))
  | .call nnn => ∃ h : s.SP.val < 48,
      t = ({ s with STK := s.STK.set s.SP.val (s.pc + 2) h, SP := ⟨s.SP.val + 1, Nat.succ_lt_succ h⟩ } : State).setPc
        (addressOperand nnn)
  | .drw x y n => s.dataInRange n.val = true ∧ (s.drawSprite x y n.val).advance = t
  | .ldB x => s.dataInRange 3 = true ∧ (s.storeAtI (decimalDigits (s.reg x))).advance = t
  | .stRegs x => s.dataInRange (x.val + 1) = true ∧ (s.storeAtI (s.regsUpTo x)).advance = t
  | .ldRegs x => s.dataInRange (x.val + 1) = true ∧ (s.loadRegs (x.val + 1)).advance = t
  | .ldVxK x => t = s ∨ ∃ k : Key, t = (s.setReg x (BitVec.ofNat 8 k.val)).advance
  | i => exec i s = .next t

/-- The one case split over what a completed instruction can have done; the facts below take it from here. -/
theorem completed_of_exec {i : Instr} {s t : State} (h : exec i s = .next t) : Completed s t i := by
  cases i
  case ret => exact (exec_ret_next s t).mp h
  case call nnn => exact (exec_call_next nnn s t).mp h
  case drw x y n => exact (exec_drw_next x y n s t).mp h
  case ldB x => exact (exec_ldB_next x s t).mp h
  case stRegs x => exact (exec_stRegs_next x s t).mp h
  case ldRegs x => exact (exec_ldRegs_next x s t).mp h
  case ldVxK x =>
    cases hscan : s.firstKey with
    | none =>
      cases (exec_ldVxK_none x s hscan).symm.trans h
      exact .inl rfl
    | some k =>
      cases (exec_ldVxK_some x s k hscan).symm.trans h
      exact .inr ⟨k, rfl⟩
  all_goals exact h

/-- Memory after a completed instruction: as it was, or, by FX33 and FX55, with `storeLen i` bytes written inside memory from `I` on. -/
theorem exec_next_M {i : Instr} {s t : State} (h : exec i s = .next t) :
    t.M = s.M ∨ ∃ bs : List Byte, bs.length = storeLen i ∧ s.I.toNat + bs.length ≤ 4096 ∧
      t.M = Memory.writeBytes s.M s.I.toNat bs := by
  replace h := completed_of_exec h
  cases i
  case ldB x =>
    obtain ⟨hrange, rfl⟩ := h
    have hfits := (s.dataInRange_iff 3).mp hrange
    exact .inr ⟨decimalDigits (s.reg x), rfl, by simpa using hfits, rfl⟩
  case stRegs x =>
    obtain ⟨hrange, rfl⟩ := h
    have hfits := (s.dataInRange_iff (x.val + 1)).mp hrange
    exact .inr ⟨s.regsUpTo x, s.length_regsUpTo x, by simpa [s.length_regsUpTo x] using hfits, rfl⟩
  case ret | call | drw | ldRegs =>
    obtain ⟨-, rfl⟩ := h
    exact .inl (by simp)
  case ldVxK =>
    obtain rfl | ⟨k, rfl⟩ := h
    · exact .inl rfl
    · exact .inl rfl
  all_goals
    cases h
    exact .inl (by simp)

theorem memoryCanonical_of_exec {i : Instr} {s t : State} (hs : s.MemoryCanonical) (h : exec i s = .next t) :
    t.MemoryCanonical := by
  unfold State.MemoryCanonical
  obtain hM | ⟨bs, -, hfits, hM⟩ := exec_next_M h
  · rw [hM]; exact hs
  · rw [hM]; exact Memory.wf_writeBytes s.M _ bs hfits hs

/-- Settles O54: of all that a step can do, only FX33, FX55 and `Load` write memory, each inside it (`exec_next_M`,
`Memory.wf_writeBytes`), and a `Reset` empties it. -/
theorem stepKeepsMemoryCanonical : Obligations.StepKeepsMemoryCanonical := by
  intro s t hs h
  obtain ⟨s', hs', hstep⟩ := step_next s t h
  have hcanon : s'.MemoryCanonical := by
    obtain rfl | ⟨_, rfl⟩ := hs'
    · exact hs
    · exact hs
  obtain ⟨w, i, -, -, -, hexec⟩ | ⟨w, -, -, -, rfl⟩ | rfl | ⟨addr, bytes, -, hload, rfl⟩ | rfl | ⟨k, rfl⟩ | rfl | rfl := hstep
  · exact memoryCanonical_of_exec (s := s'.beginCycle) hcanon hexec
  · exact hcanon
  · exact Memory.wf_reset
  · exact Memory.wf_writeBytes s'.M addr bytes (of_decide_eq_true hload) hcanon
  all_goals exact hcanon

/-- A bounded `pc` and the stack of a bounded state make a bounded state. -/
theorem pcBounded_of_stack_eq {s t : State} (hs : s.PcBounded) (hSP : t.SP = s.SP) (hSTK : t.STK = s.STK)
    (hpc : t.pc.toNat ≤ 0x10FE) : t.PcBounded := by
  refine ⟨hpc, ?_⟩
  rw [hSP, hSTK]
  exact hs.2

/-- After a fetch that passed, `pc0 + 2` does not wrap, and is at most 4096. -/
theorem toNat_pc_add_two {s : State} (hfetch : s.pc.toNat ≤ 4094) : (s.pc + 2).toNat = s.pc.toNat + 2 := by
  bv_omega

theorem skipIf_pc_le {s : State} (hfetch : s.pc.toNat ≤ 4094) (c : Bool) : (s.skipIf c).pc.toNat ≤ 4098 := by
  cases c
  · change (s.pc + 2).toNat ≤ 4098
    bv_omega
  · change (s.pc + 4).toNat ≤ 4098
    bv_omega

/-- After a fetch that passed, every instruction keeps the bound: 00EE takes a live return address, 2NNN pushes `pc0 + 2`, BNNN's sum is
at most 0xFF + 0xFFF, and every other target is an address operand or at most `pc0 + 4`. -/
theorem pcBounded_of_exec {i : Instr} {s t : State} (hs : s.PcBounded) (hfetch : s.pc.toNat ≤ 4094) (h : exec i s = .next t) :
    t.PcBounded := by
  replace h := completed_of_exec h
  have hadvance : (s.pc + 2).toNat ≤ 4096 := by rw [toNat_pc_add_two hfetch]; omega
  have hsequential : (s.pc + 2).toNat ≤ 0x10FE := hadvance.trans (by decide)
  have htarget (nnn : BitVec 12) : (addressOperand nnn).toNat ≤ 0x10FE := by
    have := nnn.isLt
    rw [toNat_addressOperand]
    omega
  cases i
  case ret =>
    obtain ⟨hSP, rfl⟩ := h
    refine ⟨?_, fun k hk => hs.2 k (Nat.lt_of_lt_of_le hk (Nat.sub_le _ _))⟩
    have htop : s.STK[s.SP.val - 1].toNat ≤ 4096 := hs.2 ⟨s.SP.val - 1, by omega⟩ (Nat.sub_lt hSP Nat.one_pos)
    exact htop.trans (by decide)
  case call nnn =>
    obtain ⟨hSP, rfl⟩ := h
    refine ⟨htarget nnn, fun k hk => ?_⟩
    have hk' : k.val < s.SP.val + 1 := hk
    by_cases htop : s.SP.val = k.val
    · simpa [htop] using hadvance
    · have hlive := hs.2 k (by omega)
      simpa [htop] using hlive
  case jp nnn =>
    cases h
    exact pcBounded_of_stack_eq hs rfl rfl (htarget nnn)
  case jpV0 nnn =>
    cases h
    refine pcBounded_of_stack_eq hs rfl rfl ?_
    have hreg := (s.reg 0).isLt
    have hnnn := nnn.isLt
    rw [State.setPc_pc, toNat_wideReg_add_addressOperand]
    omega
  case seImm | sneImm | seReg | sneReg | skp | sknp =>
    cases h
    exact pcBounded_of_stack_eq hs (by simp) (by simp) ((skipIf_pc_le hfetch _).trans (by decide))
  case ldVxK =>
    obtain rfl | ⟨k, rfl⟩ := h
    · exact hs
    · exact pcBounded_of_stack_eq hs rfl rfl hsequential
  case drw | ldB | stRegs | ldRegs =>
    obtain ⟨-, rfl⟩ := h
    exact pcBounded_of_stack_eq hs (by simp) (by simp) (by simpa using hsequential)
  all_goals
    cases h
    exact pcBounded_of_stack_eq hs rfl rfl hsequential

theorem le_of_fetchWord {s : State} {w : Word} (h : s.fetchWord = some w) : s.pc.toNat ≤ 4094 :=
  ((s.fetchWord_some w).mp h).1

/-- Settles O55: a `Cycle` executes only what it fetched, so `pc0` is at most 4094 and every instruction keeps the bound
(`pcBounded_of_exec`); no other operation but a `Reset` touches `pc` or the stack. -/
theorem stepKeepsPcBounded : Obligations.StepKeepsPcBounded := by
  intro s t hs h
  obtain ⟨s', hs', hstep⟩ := step_next s t h
  have hbounded : s'.PcBounded := by
    obtain rfl | ⟨_, rfl⟩ := hs'
    · exact hs
    · exact hs
  obtain ⟨w, i, -, hfetch, -, hexec⟩ | ⟨w, -, hfetch, -, rfl⟩ | rfl | ⟨addr, bytes, -, -, rfl⟩ | rfl | ⟨k, rfl⟩ | rfl | rfl := hstep
  · exact pcBounded_of_exec (s := s'.beginCycle) hbounded (le_of_fetchWord hfetch) hexec
  · have hpc := le_of_fetchWord hfetch
    have hadvance := toNat_pc_add_two hpc
    exact pcBounded_of_stack_eq hbounded rfl rfl (by rw [State.reportUnknown_pc, State.beginCycle_pc]; omega)
  · exact ⟨show (0x200 : Word).toNat ≤ 0x10FE by decide, fun k hk => absurd hk (Nat.not_lt_zero _)⟩
  all_goals exact hbounded

end Sys2Proof.Proofs

/-! ### PROOFS. Frames: what every operation and every instruction leaves alone (10_state.md section 12) -/

namespace Sys2Proof.Proofs
open Sys2Proof.Machine

theorem unchangedExcept_mono {ps qs : List Part} {s t : State} (h : UnchangedExcept ps s t) (hsub : ps ⊆ qs) :
    UnchangedExcept qs s t := fun p hp => h p fun hmem => hp (hsub hmem)

theorem same_trans {p : Part} {s t u : State} (hst : p.same s t) (htu : p.same t u) : p.same s u := by
  cases p
  case regs | slots | keys | memory => exact fun k => (htu k).trans (hst k)
  case pixels => exact fun x y => (htu x y).trans (hst x y)
  all_goals exact htu.trans hst

/-- Two changes in a row leave alone what both leave alone. -/
theorem unchangedExcept_trans {ps qs : List Part} {s t u : State} (hst : UnchangedExcept ps s t) (htu : UnchangedExcept qs t u) :
    UnchangedExcept (ps ++ qs) s u := fun p hp => by
  rw [List.mem_append, not_or] at hp
  exact same_trans (hst p hp.1) (htu p hp.2)

/-- The advance of `pc` at an instruction's end adds only `pc` to what it changes. -/
theorem unchangedExcept_advance {ps : List Part} {s t : State} (h : UnchangedExcept ps s t) :
    UnchangedExcept (ps ++ [.pc]) s t.advance :=
  unchangedExcept_trans h (unchangedExcept_setPc t _)

theorem unchangedExcept_setReg (s : State) (x : Reg) (v : Byte) : UnchangedExcept [.regs] s (s.setReg x v) := by
  intro p hp
  cases p
  case regs => simp at hp
  all_goals simp [Part.same]

theorem unchangedExcept_setResultThenFlag (s : State) (x : Reg) (v : Byte) (c : Bool) :
    UnchangedExcept [.regs] s (s.setResultThenFlag x v c) :=
  unchangedExcept_mono (unchangedExcept_trans (unchangedExcept_setReg s x v) (unchangedExcept_setReg _ regF _)) (by simp)

theorem unchangedExcept_setFlagThenResult (s : State) (x : Reg) (v : Byte) (c : Bool) :
    UnchangedExcept [.regs] s (s.setFlagThenResult x v c) :=
  unchangedExcept_mono (unchangedExcept_trans (unchangedExcept_setReg s regF _) (unchangedExcept_setReg _ x v)) (by simp)

theorem unchangedExcept_storeAtI (s : State) (bs : List Byte) : UnchangedExcept [.memory] s (s.storeAtI bs) := by
  intro p hp
  cases p
  case memory => simp at hp
  all_goals simp [Part.same]

theorem unchangedExcept_loadRegs (s : State) (n : Nat) : UnchangedExcept [.regs] s (s.loadRegs n) := by
  intro p hp
  cases p
  case regs => simp at hp
  all_goals simp [Part.same]

theorem unchangedExcept_drawSprite (s : State) (x y : Reg) (n : Nat) :
    UnchangedExcept [.regs, .pixels, .dirty] s (s.drawSprite x y n) := by
  intro p hp
  cases p
  case regs | pixels | dirty => simp at hp
  all_goals simp [Part.same]

theorem unchangedExcept_randByte (s : State) : UnchangedExcept [.draws] s s.randByte.2 := by
  intro p hp
  cases p
  case draws => simp at hp
  all_goals simp [Part.same]

/-- The frame of 2NNN: whatever the new slots, stack pointer and `pc`, all else is as it was. -/
theorem unchangedExcept_setStack (s : State) (stk : Vector Word 48) (sp : Fin 49) (target : Word) :
    UnchangedExcept [.pc, .sp, .slots] s (({ s with STK := stk, SP := sp } : State).setPc target) := by
  intro p hp
  cases p
  case pc | sp | slots => simp at hp
  case regs | keys | memory => exact fun _ => rfl
  case pixels => exact fun _ _ => rfl
  all_goals rfl

/-- The frame of 00EE: whatever the new stack pointer and `pc`, all else is as it was, the slots among it. -/
theorem unchangedExcept_setSP (s : State) (sp : Fin 49) (target : Word) :
    UnchangedExcept [.pc, .sp] s (({ s with SP := sp } : State).setPc target) := by
  intro p hp
  cases p
  case pc | sp => simp at hp
  case slots => exact fun _ => rfl
  all_goals exact unchangedExcept_setStack s s.STK sp target _ (by simp)

/-! #### The access matrix (10_state.md R37) -/

/-- What a completed instruction leaves alone: the registers outside its destinations, and every part outside its row. -/
theorem exec_next_frame {i : Instr} {s t : State} (h : exec i s = .next t) :
    (∀ r, r ∉ destRegs i → t.reg r = s.reg r) ∧ UnchangedExcept (.regs :: .memory :: destParts i) s t := by
  replace h := completed_of_exec h
  cases i
  case cls =>
    cases h
    exact ⟨fun _ _ => rfl, unchangedExcept_mono (unchangedExcept_setGrid_advance s _) (by simp [destParts])⟩
  case ret =>
    obtain ⟨_, rfl⟩ := h
    exact ⟨fun _ _ => rfl, unchangedExcept_mono (unchangedExcept_setSP s _ _) (by simp [destParts])⟩
  case call =>
    obtain ⟨_, rfl⟩ := h
    exact ⟨fun _ _ => rfl, unchangedExcept_mono (unchangedExcept_setStack s _ _ _) (by simp [destParts])⟩
  case jp | jpV0 =>
    cases h
    exact ⟨fun _ _ => rfl, unchangedExcept_mono (unchangedExcept_setPc s _) (by simp [destParts])⟩
  case seImm | sneImm | seReg | sneReg | skp | sknp =>
    cases h
    refine ⟨fun _ _ => by simp, ?_⟩
    rw [skipIf_eq_setPc]
    exact unchangedExcept_mono (unchangedExcept_setPc s _) (by simp [destParts])
  case ldImm | addImm | ldReg | orReg | andReg | xorReg | ldVxDt =>
    cases h
    exact ⟨fun r hr => by simp_all [destRegs], unchangedExcept_mono (unchangedExcept_setReg_advance s _ _) (by simp [destParts])⟩
  case addReg =>
    cases h
    exact ⟨fun r hr => by simp_all [destRegs],
      unchangedExcept_mono (unchangedExcept_advance (unchangedExcept_setResultThenFlag s _ _ _)) (by simp [destParts])⟩
  case sub | shr | subn | shl =>
    cases h
    exact ⟨fun r hr => by simp_all [destRegs],
      unchangedExcept_mono (unchangedExcept_advance (unchangedExcept_setFlagThenResult s _ _ _)) (by simp [destParts])⟩
  case ldI | addI | ldF =>
    cases h
    exact ⟨fun _ _ => rfl, unchangedExcept_mono (unchangedExcept_setI_advance s _) (by simp [destParts])⟩
  case rnd x nn =>
    cases h
    have hframe := unchangedExcept_trans (unchangedExcept_randByte s)
      (unchangedExcept_setReg_advance s.randByte.2 x (nn &&& s.randByte.1))
    exact ⟨fun r hr => by simp_all [destRegs], unchangedExcept_mono hframe (by simp [destParts])⟩
  case drw =>
    obtain ⟨-, rfl⟩ := h
    exact ⟨fun r hr => by simp_all [destRegs],
      unchangedExcept_mono (unchangedExcept_advance (unchangedExcept_drawSprite s _ _ _)) (by simp [destParts])⟩
  case ldVxK =>
    obtain rfl | ⟨k, rfl⟩ := h
    · exact ⟨fun _ _ => rfl, unchangedExcept_mono (unchangedExcept_setPc t t.pc) (by simp [destParts])⟩
    · exact ⟨fun r hr => by simp_all [destRegs], unchangedExcept_mono (unchangedExcept_setReg_advance s _ _) (by simp [destParts])⟩
  case ldDtVx =>
    cases h
    exact ⟨fun _ _ => rfl, unchangedExcept_mono (unchangedExcept_setDT_advance s _) (by simp [destParts])⟩
  case ldStVx =>
    cases h
    exact ⟨fun _ _ => rfl, unchangedExcept_mono (unchangedExcept_setST_advance s _) (by simp [destParts])⟩
  case ldB | stRegs =>
    obtain ⟨-, rfl⟩ := h
    exact ⟨fun _ _ => rfl,
      unchangedExcept_mono (unchangedExcept_advance (unchangedExcept_storeAtI s _)) (by simp [destParts])⟩
  case ldRegs x =>
    obtain ⟨-, rfl⟩ := h
    refine ⟨fun r hr => ?_, unchangedExcept_mono (unchangedExcept_advance (unchangedExcept_loadRegs s _)) (by simp [destParts])⟩
    have habove : x.val < r.val := by simpa [destRegs] using hr
    rw [State.reg_advance, State.reg_loadRegs s _ (by omega), if_neg (by omega)]

/-- Settles O52: registers and parts by `exec_next_frame`, and memory is written from `I` on for `storeLen i` bytes at most
(`exec_next_M`). -/
theorem accessMatrix : Obligations.AccessMatrix := by
  intro i s t h
  obtain ⟨hregs, hparts⟩ := exec_next_frame h
  refine ⟨hregs, fun a ha => ?_, hparts⟩
  unfold State.memRead
  obtain hM | ⟨bs, hlen, -, hM⟩ := exec_next_M h
  · rw [hM]
  · rw [hM]
    exact Memory.read_writeBytes_outside s.M _ bs a (by rwa [hlen])

/-! #### `DIRTY` and VF -/

/-- `DIRTY` stands in the row of 00E0 and of DXYN only. -/
theorem dirty_mem_destParts {i : Instr} : Part.dirty ∈ destParts i ↔ i = .cls ∨ ∃ x y n, i = .drw x y n := by
  cases i <;> simp [destParts]

/-- Settles O41: 00E0 and DXYN end with the write of `DIRTY`, whatever they drew; of every other instruction the access matrix has it
that `DIRTY` stays (`exec_next_frame`). -/
theorem dirtySetByEveryDraw : Obligations.DirtySetByEveryDraw := by
  intro i s t h
  constructor
  · rintro (rfl | ⟨x, y, n, rfl⟩)
    · cases h
      rfl
    · obtain ⟨-, rfl⟩ := (exec_drw_next x y n s t).mp h
      rfl
  · intro hother
    exact (exec_next_frame h).2 .dirty (by simpa [dirty_mem_destParts] using hother)

theorem flagByte_eq_zero_or_one (c : Bool) : flagByte c = 0 ∨ flagByte c = 1 := by
  cases c
  · exact .inl rfl
  · exact .inr rfl

/-- VF after DXYN is 0 or 1. -/
theorem drawSprite_regF (s : State) (x y : Reg) (n : Nat) :
    (s.drawSprite x y n).reg regF = 0 ∨ (s.drawSprite x y n).reg regF = 1 := by
  rw [State.reg_drawSprite, if_pos rfl]
  exact flagByte_eq_zero_or_one _

/-- The flag is what 8XY4 leaves in VF, whatever `X` is. -/
theorem reg_regF_setResultThenFlag (s : State) (x : Reg) (v : Byte) (c : Bool) :
    (s.setResultThenFlag x v c).reg regF = flagByte c := by
  simp

/-- The flag is what 8XY5, 8XY6, 8XY7 and 8XYE leave in VF, unless VF is their destination. -/
theorem reg_regF_setFlagThenResult (s : State) {x : Reg} (hx : x ≠ regF) (v : Byte) (c : Bool) :
    (s.setFlagThenResult x v c).reg regF = flagByte c := by
  simp [hx.symm]

/-- The instructions that have VF among their destinations. -/
theorem of_regF_mem_destRegs {i : Instr} (h : regF ∈ destRegs i) :
    (∃ x y, i = .addReg x y ∨ i = .sub x y ∨ i = .shr x y ∨ i = .subn x y ∨ i = .shl x y ∨ ∃ n, i = .drw x y n) ∨
    (∃ nn, i = .ldImm regF nn ∨ i = .addImm regF nn ∨ i = .rnd regF nn) ∨
    (∃ y, i = .ldReg regF y ∨ i = .orReg regF y ∨ i = .andReg regF y ∨ i = .xorReg regF y) ∨
    i = .ldVxDt regF ∨ i = .ldVxK regF ∨ i = .ldRegs regF := by
  cases i
  case ldRegs x =>
    have hx : regF ≤ x := by simpa [destRegs] using h
    obtain rfl : x = regF := le_antisymm (Fin.le_last x) hx
    simp
  all_goals simp_all [destRegs]

/-- Settles O53: a changed VF is a destination (`exec_next_frame`), and the flag of the six flag instructions is a `flagByte`. -/
theorem flagSideEffects : Obligations.FlagSideEffects := by
  intro i s t h
  refine ⟨fun hchanged => ?_, fun x y hi hx => ?_, fun x y n hi => ?_⟩
  · exact of_regF_mem_destRegs (by_contra fun hmem => hchanged ((exec_next_frame h).1 regF hmem))
  · have hflag : ∃ c, t.reg regF = flagByte c := by
      obtain rfl | rfl | rfl | rfl | rfl := hi
      · cases h
        exact ⟨_, reg_regF_setResultThenFlag s x _ _⟩
      all_goals
        cases h
        exact ⟨_, reg_regF_setFlagThenResult s hx _ _⟩
    obtain ⟨c, hc⟩ := hflag
    rw [hc]
    exact flagByte_eq_zero_or_one c
  · subst hi
    obtain ⟨-, rfl⟩ := (exec_drw_next x y n s t).mp h
    exact drawSprite_regF s x y n.val

end Sys2Proof.Proofs

/-! ### PROOFS. Errors: which instruction fails, and when (60_exceptions.md section 1) -/

namespace Sys2Proof.Proofs
open Sys2Proof.Machine

theorem dataInRange_eq_false_iff {s : State} {len : Nat} :
    s.dataInRange len = false ↔ 0 < len ∧ s.I.toNat + len - 1 > 4095 := by
  rw [← Bool.not_eq_true, s.dataInRange_iff]
  omega

/-- A data access that fails gives the DATA error of R205, with the lowest address outside memory. -/
theorem withData_eq_fault_iff {s : State} {w : Word} {len : Nat} {body : State → State} {f : Fault} :
    s.withData w len body = .fault f ↔
      0 < len ∧ s.I.toNat + len - 1 > 4095 ∧ f = .dataOutOfBounds s.pc w (max s.I.toNat 4096) := by
  rw [s.withData_fault, dataInRange_eq_false_iff, and_assoc]
  rfl

/-- The error table, instruction by instruction (60_exceptions.md R201). -/
theorem exec_eq_fault_iff {i : Instr} {s : State} {f : Fault} : exec i s = .fault f ↔
    (∃ nnn, i = .call nnn ∧ s.SP.val = 48 ∧ f = .stackOverflow s.pc (encode i)) ∨
    (i = .ret ∧ s.SP.val = 0 ∧ f = .stackUnderflow s.pc (encode i)) ∨
    (0 < dataLen i ∧ s.I.toNat + dataLen i - 1 > 4095 ∧ f = .dataOutOfBounds s.pc (encode i) (max s.I.toNat 4096)) := by
  cases i
  case call nnn => simpa [dataLen] using exec_call_fault nnn s f
  case ret => simpa [dataLen] using exec_ret_fault s f
  case drw | ldB | stRegs | ldRegs =>
    simp [exec, execDrw, execLdB, execStRegs, execLdRegs, withData_eq_fault_iff, dataLen]
  case ldVxK x =>
    cases hscan : s.firstKey with
    | none => simp [exec_ldVxK_none x s hscan, dataLen]
    | some k => simp [exec_ldVxK_some x s k hscan, dataLen]
  all_goals
    refine iff_of_false (fun h => nomatch h) ?_
    simp [dataLen]

/-- Settles O11: the error table, `exec_eq_fault_iff`. -/
theorem instructionFaultsExactly : Obligations.InstructionFaultsExactly := fun _ _ _ => exec_eq_fault_iff

/-- Settles O12: an instruction is not refused (`exec_ne_refused`), and each case of the error table is excluded. -/
theorem everyInstructionCompletes : Obligations.EveryInstructionCompletes := by
  intro i s hcall hret hdata
  cases h : exec i s with
  | next t => exact ⟨t, rfl⟩
  | refused r => exact absurd h (exec_ne_refused i s r)
  | fault f =>
    obtain ⟨nnn, hi, hSP, -⟩ | ⟨hi, hSP, -⟩ | ⟨hlen, hrange, -⟩ := exec_eq_fault_iff.mp h
    · have := hcall nnn hi
      omega
    · have := hret hi
      omega
    · omega

/-- No instruction gives the FETCH error. -/
theorem exec_ne_fetchOutOfBounds (i : Instr) (s : State) (pc0 : Word) : exec i s ≠ .fault (.fetchOutOfBounds pc0) := by
  intro h
  obtain ⟨_, -, -, hf⟩ | ⟨-, -, hf⟩ | ⟨-, -, hf⟩ := exec_eq_fault_iff.mp h
  all_goals cases hf

end Sys2Proof.Proofs

/-! ### PROOFS. The `Cycle` and the step (00_scope.md section 3, 60_exceptions.md section 2) -/

namespace Sys2Proof.Proofs
open Sys2Proof.Machine

theorem step_of_agenda_nil {s : State} (h : s.agenda = []) : step s = cycle s := by
  rw [step, nextOperation, h]

theorem step_of_agenda_cons {s : State} {op : HostOp} {rest : List HostOp} (h : s.agenda = op :: rest) :
    step s = perform op { s with agenda := rest } := by
  rw [step, nextOperation, h]

/-- A stopped core gives its report again (60_exceptions.md R208). -/
theorem cycle_of_stopped {s : State} {f : Fault} (h : s.stoppedBy = some f) : cycle s = .fault f := by
  rw [cycle, h]
  rfl

theorem cycle_of_fetch_none {s : State} (hs : s.stoppedBy = none) (h : s.fetchWord = none) :
    cycle s = .fault (.fetchOutOfBounds s.pc) := by
  rw [cycle, hs, h]
  rfl

theorem cycle_of_fetch {s : State} {w : Word} (hs : s.stoppedBy = none) (h : s.fetchWord = some w) :
    cycle s = executeWord w s.beginCycle := by
  rw [cycle, hs, h]

theorem executeWord_of_decode {w : Word} {i : Instr} (h : decodeWord w = .ok i) (s : State) : executeWord w s = exec i s := by
  rw [executeWord, h]

theorem executeWord_of_error {w : Word} {e : DecodeError} (h : decodeWord w = .error e) (s : State) :
    executeWord w s = .next (s.reportUnknown w) := by
  rw [executeWord, h]

/-- The fetch of a state whose two bytes at `pc` are cells of memory (20_memory.md R55, R56). -/
theorem fetchWord_of_le {s : State} (h : s.pc.toNat + 1 ≤ 4095) :
    s.fetchWord = some (s.memRead s.pc.toNat ++ s.memRead (s.pc.toNat + 1)) :=
  (s.fetchWord_some _).mpr ⟨by omega, rfl⟩

theorem decode_pair_eq_ok_iff {hi lo : Byte} {i : Instr} : decode [hi, lo] = .ok (i, []) ↔ decodeWord (hi ++ lo) = .ok i := by
  rw [decode]
  cases decodeWord (hi ++ lo) <;> simp

theorem executeWord_ne_fetchOutOfBounds (w : Word) (s : State) (pc0 : Word) :
    executeWord w s ≠ .fault (.fetchOutOfBounds pc0) := by
  cases h : decodeWord w with
  | ok i =>
    rw [executeWord_of_decode h]
    exact exec_ne_fetchOutOfBounds i s pc0
  | error e => simp [executeWord_of_error h]

/-- Settles O7: out of bounds the fetch fails; in bounds the word is executed, and no instruction gives the FETCH error. -/
theorem fetchFailsExactlyOutOfBounds : Obligations.FetchFailsExactlyOutOfBounds := by
  intro s hagenda hs
  rw [step_of_agenda_nil hagenda]
  cases hfetch : s.fetchWord with
  | none =>
    have hpc := s.fetchWord_none.mp hfetch
    exact iff_of_true (cycle_of_fetch_none hs hfetch) (by omega)
  | some w =>
    have hpc := le_of_fetchWord hfetch
    rw [cycle_of_fetch hs hfetch]
    exact iff_of_false (executeWord_ne_fetchOutOfBounds w _ _) (by omega)

/-- Settles O8: the fetch gives the two bytes as one word (`fetchWord_of_le`), and the `Cycle` executes what it decodes to. -/
theorem stepRunsDecoded : Obligations.StepRunsDecoded := by
  refine ⟨fun s i hs hpc hdecode => ?_, fun _ => step_of_agenda_nil, fun _ _ _ => step_of_agenda_cons⟩
  have hcycle : cycle s = exec i s.beginCycle := by
    rw [cycle_of_fetch hs (fetchWord_of_le hpc), executeWord_of_decode (decode_pair_eq_ok_iff.mp hdecode)]
  have hcycle_rest (rest : List HostOp) : cycle { s with agenda := rest } = exec i { s with agenda := rest }.beginCycle := by
    rw [cycle_of_fetch (s := { s with agenda := rest }) hs (fetchWord_of_le hpc)]
    exact executeWord_of_decode (decode_pair_eq_ok_iff.mp hdecode) _
  exact ⟨hcycle, fun h => (step_of_agenda_nil h).trans hcycle, fun rest h => (step_of_agenda_cons h).trans (hcycle_rest rest)⟩

/-- Reporting an unknown word changes `pc`, the report and, as every `Cycle`, the `Load` window (60_exceptions.md R206). -/
theorem unchangedExcept_reportUnknown (s : State) (w : Word) :
    UnchangedExcept [.pc, .report, .fresh] s (s.beginCycle.reportUnknown w) := by
  intro p hp
  cases p
  case pc | report | fresh => simp at hp
  all_goals simp [Part.same]

theorem decodeWord_of_no_row {w : Word} (h : ∀ r ∈ opcodeRows, r.selects w = false) :
    decodeWord w = .error (.unknownInstruction w) := by
  rw [decodeWord_eq_unknown_iff, wordWellFormed, List.any_eq_false]
  simpa using h

/-- Settles O9: a word that no row selects is no instruction (`decodeWord_of_no_row`), so the `Cycle` answers `reportUnknown`. -/
theorem unknownWordReportedAndSkipped : Obligations.UnknownWordReportedAndSkipped := by
  intro s hs hpc hrows
  have hcycle (rest : List HostOp) :
      cycle { s with agenda := rest } = .next ({ s with agenda := rest }.beginCycle.reportUnknown
        (s.memRead s.pc.toNat ++ s.memRead (s.pc.toNat + 1))) := by
    rw [cycle_of_fetch (s := { s with agenda := rest }) hs (fetchWord_of_le hpc)]
    exact executeWord_of_error (decodeWord_of_no_row hrows) _
  exact ⟨_, hcycle s.agenda, rfl, rfl, rfl, rfl, unchangedExcept_reportUnknown s _,
    fun h => (step_of_agenda_nil h).trans (hcycle s.agenda), fun rest h => (step_of_agenda_cons h).trans (hcycle rest)⟩

/-- Settles O60: the `Cycle` executes the jump, which writes `pc` with what it holds; the report was none and the window closed before. -/
theorem selfJumpIsFixedPoint : Obligations.SelfJumpIsFixedPoint := by
  rintro s ⟨nnn, hfetch, htarget⟩ hagenda hreport hfresh
  have hs : s.stoppedBy = none := by rw [State.stoppedBy, hreport]
  have hbegin : s.beginCycle = s := by rw [State.beginCycle, ← hreport, ← hfresh]
  have hpc : addressOperand nnn = s.pc := BitVec.eq_of_toNat_eq ((toNat_addressOperand nnn).trans htarget.symm)
  calc step s = executeWord (encode (.jp nnn)) s.beginCycle := (step_of_agenda_nil hagenda).trans (cycle_of_fetch hs hfetch)
    _ = exec (.jp nnn) s := by rw [hbegin, executeWord_of_decode (decodeWord_encode _)]
    _ = .next (s.setPc (addressOperand nnn)) := rfl
    _ = .next s := by rw [hpc]; rfl

/-! #### Placing a word where the next fetch reads -/

theorem readyToFetch_pc_le (s : State) : s.readyToFetch.pc.toNat ≤ 4094 := by
  by_cases h : s.fetchInRange = true
  · simpa [State.readyToFetch, h] using s.fetchInRange_iff.mp h
  · simp [State.readyToFetch, h, Config.programBase]

theorem stoppedBy_readyToFetch (s : State) : s.readyToFetch.stoppedBy = none := by
  unfold State.readyToFetch State.stoppedBy
  cases s.report with
  | none => rfl
  | some r => cases r <;> rfl

theorem readyToFetch_agenda (s : State) : s.readyToFetch.agenda = [] ∨ ∃ rest, s.readyToFetch.agenda = .cycle :: rest := by
  change cycleFirst s.agenda = [] ∨ ∃ rest, cycleFirst s.agenda = .cycle :: rest
  cases s.agenda with
  | nil => exact .inl rfl
  | cons op rest => exact .inr ⟨op :: rest, rfl⟩

/-- The fetch reads back the word placed at `pc`. -/
theorem fetchWord_placeWord {s : State} (hpc : s.pc.toNat ≤ 4094) (w : Word) : (s.placeWord w).fetchWord = some w := by
  have hhigh : (s.placeWord w).memRead s.pc.toNat = highByte w :=
    Memory.read_writeBytes_inside s.M s.pc.toNat (wordBytes w) 0 Nat.two_pos
  have hlow : (s.placeWord w).memRead (s.pc.toNat + 1) = lowByte w :=
    Memory.read_writeBytes_inside s.M s.pc.toNat (wordBytes w) 1 Nat.one_lt_two
  refine (State.fetchWord_some _ w).mpr ⟨hpc, ?_⟩
  change w = (s.placeWord w).memRead s.pc.toNat ++ (s.placeWord w).memRead (s.pc.toNat + 1)
  rw [hhigh, hlow, highByte_append_lowByte]

/-- Settles O10: `readyToFetch` sees to the agenda, the report and `pc`, and the fetch reads the two bytes that `placeWord` stores. -/
theorem placedWordIsFetchedNext : Obligations.PlacedWordIsFetchedNext := fun s _ _ =>
  ⟨fetchWord_placeWord (readyToFetch_pc_le s) _, stoppedBy_readyToFetch s, readyToFetch_agenda s⟩

end Sys2Proof.Proofs

/-! ### PROOFS. The stopped core (60_exceptions.md section 2) -/

namespace Sys2Proof.Proofs
open Sys2Proof.Machine

theorem hostStep_of_next {s t : State} (h : step s = .next t) : hostStep s = t := by
  rw [hostStep, h]
  rfl

theorem hostStep_of_fault {s : State} {f : Fault} (h : step s = .fault f) : hostStep s = s.popAgenda.stopWith f := by
  rw [hostStep, h]
  rfl

theorem hostStep_of_refused {s : State} {r : Refusal} (h : step s = .refused r) : hostStep s = s.popAgenda := by
  rw [hostStep, h]
  rfl

theorem unchangedExcept_popAgenda (s : State) : UnchangedExcept [.agenda] s s.popAgenda := by
  intro p hp
  cases p
  case agenda => simp at hp
  all_goals simp [Part.same]

theorem unchangedExcept_stopWith (s : State) (f : Fault) : UnchangedExcept [.report, .fresh] s (s.stopWith f) := by
  intro p hp
  cases p
  case report | fresh => simp at hp
  all_goals simp [Part.same]

/-- Settles O13: the host is left with `stopWith` of the state as it was. -/
theorem fatalErrorStopsUnchanged : Obligations.FatalErrorStopsUnchanged := by
  intro s f h
  rw [hostStep_of_fault h]
  have hframe := unchangedExcept_trans (unchangedExcept_popAgenda s) (unchangedExcept_stopWith _ f)
  exact ⟨unchangedExcept_mono hframe (by simp), rfl, cycle_of_stopped rfl⟩

theorem stoppedBy_eq_some_iff {s : State} {f : Fault} : s.stoppedBy = some f ↔ s.report = some (.fatal f) := by
  rw [State.stoppedBy]
  split
  · simp_all
  · next hother => exact iff_of_false (fun h => nomatch h) (hother f)

/-- A stopped core outside the `Load` window is not changed by its own report. -/
theorem stopWith_of_stopped {s : State} {f : Fault} (hs : s.stoppedBy = some f) (hfresh : s.fresh = false) : s.stopWith f = s := by
  rw [State.stopWith, ← stoppedBy_eq_some_iff.mp hs, ← hfresh]

theorem hostLoad_of_not_fresh {s : State} (h : s.fresh = false) (addr : Nat) (bytes : List Byte) :
    hostLoad addr bytes s = .refused .loadAfterFirstCycle := by
  simp [hostLoad, h]

theorem popAgenda_of_cons {s : State} {op : HostOp} {rest : List HostOp} (h : s.agenda = op :: rest) :
    s.popAgenda = { s with agenda := rest } := by
  rw [State.popAgenda, h]
  rfl

theorem unchangedExcept_tick (s : State) : UnchangedExcept [.delay, .sound] s s.tick := by
  intro p hp
  cases p
  case delay | sound => simp at hp
  all_goals simp [Part.same]

/-- On a stopped core outside the `Load` window a `Cycle` and a `Load` leave only the agenda changed, and what `Tick`, `KeysWrite` and
`DirtyAck` write is theirs to write (60_exceptions.md R208). -/
theorem hostStep_of_stopped {s : State} {f : Fault} (hs : s.stoppedBy = some f) (hfresh : s.fresh = false)
    (hreset : s.agenda.head? ≠ some .reset) :
    hostStep s = s.popAgenda ∨ hostStep s = s.popAgenda.tick ∨ (∃ k, hostStep s = s.popAgenda.keysWrite k) ∨
      hostStep s = s.popAgenda.dirtyAck := by
  have hcycle (h : step s = .fault f) : hostStep s = s.popAgenda :=
    (hostStep_of_fault h).trans (stopWith_of_stopped (s := s.popAgenda) hs hfresh)
  cases hagenda : s.agenda with
  | nil => exact .inl (hcycle ((step_of_agenda_nil hagenda).trans (cycle_of_stopped hs)))
  | cons op rest =>
    have hstep : step s = perform op s.popAgenda := by rw [step_of_agenda_cons hagenda, popAgenda_of_cons hagenda]
    cases op with
    | reset => simp [hagenda] at hreset
    | load addr bytes => exact .inl (hostStep_of_refused (hstep.trans (hostLoad_of_not_fresh (s := s.popAgenda) hfresh addr bytes)))
    | cycle => exact .inl (hcycle (hstep.trans (cycle_of_stopped (s := s.popAgenda) hs)))
    | tick => exact .inr (.inl (hostStep_of_next hstep))
    | keysWrite k => exact .inr (.inr (.inl ⟨k, hostStep_of_next hstep⟩))
    | dirtyAck => exact .inr (.inr (.inr (hostStep_of_next hstep)))
    | observe => exact .inl (hostStep_of_next hstep)

/-- Settles O14: what a stopped core can still do (`hostStep_of_stopped`) leaves the report, and all else outside the list. -/
theorem onlyResetRestartsStoppedCore : Obligations.OnlyResetRestartsStoppedCore := by
  intro s f hwindow hs hreset
  have hfresh : s.fresh = false := hwindow (by rw [hs]; rfl)
  have hpop := unchangedExcept_popAgenda s
  obtain h | h | ⟨k, h⟩ | h := hostStep_of_stopped hs hfresh hreset
  all_goals
    rw [h]
    refine ⟨hs, ?_⟩
  · exact unchangedExcept_mono hpop (by simp)
  · exact unchangedExcept_mono (unchangedExcept_trans hpop (unchangedExcept_tick _)) (by simp)
  · exact unchangedExcept_mono (unchangedExcept_trans hpop (unchangedExcept_keysWrite _ k)) (by simp)
  · exact unchangedExcept_mono (unchangedExcept_trans hpop (unchangedExcept_dirtyAck _)) (by simp)

theorem fresh_of_exec {i : Instr} {s t : State} (h : exec i s = .next t) : t.fresh = s.fresh :=
  (exec_next_frame h).2 .fresh (by cases i <;> simp [destParts])

theorem stoppedNotFresh_of_step {s t : State} (hs : s.StoppedNotFresh) (h : step s = .next t) : t.StoppedNotFresh := by
  obtain ⟨s', hs', hstep⟩ := step_next s t h
  have hwindow : s'.StoppedNotFresh := by
    obtain rfl | ⟨_, rfl⟩ := hs'
    · exact hs
    · exact hs
  obtain ⟨w, i, -, -, -, hexec⟩ | ⟨w, -, -, -, rfl⟩ | rfl | ⟨addr, bytes, -, -, rfl⟩ | rfl | ⟨k, rfl⟩ | rfl | rfl := hstep
  · exact fun _ => fresh_of_exec hexec
  · exact fun _ => rfl
  · exact fun hstopped => nomatch hstopped
  all_goals exact hwindow

/-- Settles O15: every `Cycle` closes the `Load` window, a failing one too, and a `Reset` leaves no stopped core. -/
theorem hostStepKeepsStoppedNotFresh : Obligations.HostStepKeepsStoppedNotFresh := by
  intro s hs
  cases h : step s with
  | next t => rw [hostStep_of_next h]; exact stoppedNotFresh_of_step hs h
  | fault f => rw [hostStep_of_fault h]; exact fun _ => rfl
  | refused r => rw [hostStep_of_refused h]; exact hs

end Sys2Proof.Proofs

/-! ### PROOFS. `Tick`, `Reset`, `Load` and booting (60_exceptions.md section 4, 70_reset_and_hazards.md) -/

namespace Sys2Proof.Proofs
open Sys2Proof.Machine

/-- Settles O46: `tickTimer` is the natural-number predecessor, which saturates at 0 (`toNat_tickTimer`). -/
theorem tickSaturates : Obligations.TickSaturates := by
  intro s
  refine ⟨s.tick, rfl, fun _ => toNat_tickTimer _, fun h => ?_, fun _ => toNat_tickTimer _, fun h => ?_, unchangedExcept_tick s⟩
  · rw [State.tick_DT, toNat_tickTimer, h]
  · rw [State.tick_ST, toNat_tickTimer, h]

/-- Settles O50: the fields of `State.reset`, the count and the agenda kept. -/
theorem resetValues : Obligations.ResetValues := by
  intro s
  have hreg (r : Reg) : s.hostReset.reg r = 0 := by simp [State.reg, State.hostReset, State.reset]
  have hkey (k : Key) : s.hostReset.keyDown k = false := by simp [State.keyDown, State.hostReset, State.reset]
  have hslot (k : Fin 48) : s.hostReset.STK[k] = 0 := by simp [State.hostReset, State.reset]
  exact ⟨s.hostReset, rfl, fun _ => rfl, hreg, Grid.pixel_blank, rfl, rfl, rfl, rfl, rfl, rfl, hkey, rfl, hslot, rfl, rfl, rfl⟩

/-- Settles O56: memory is empty, `pc` is 0x200, no return address is live, and the core is not stopped. -/
theorem resetMeetsInvariants : Obligations.ResetMeetsInvariants :=
  ⟨Memory.wf_reset, ⟨by decide, fun _ hk => absurd hk (Nat.not_lt_zero _)⟩, fun hstopped => nomatch hstopped⟩

theorem unchangedExcept_setM (s : State) (m : Memory) : UnchangedExcept [.memory] s { s with M := m } := by
  intro p hp
  cases p
  case memory => simp at hp
  case regs | slots | keys => exact fun _ => rfl
  case pixels => exact fun _ _ => rfl
  all_goals rfl

/-- Settles O49: a `Load` in its window and inside memory is `Memory.writeBytes`, and each refusal is its own branch. -/
theorem loadPlacesBytes : Obligations.LoadPlacesBytes := by
  intro s addr bytes
  refine ⟨fun hfresh hfits => ?_, fun hfresh hlong => ?_, fun hfresh => hostLoad_of_not_fresh hfresh addr bytes⟩
  · exact ⟨_, hostLoad_next.mpr ⟨hfresh, decide_eq_true hfits, rfl⟩, Memory.read_writeBytes_inside s.M addr bytes,
      Memory.read_writeBytes_outside s.M addr bytes, unchangedExcept_setM s _⟩
  · have hload : loadWellFormed addr bytes = false := decide_eq_false (Nat.not_le.mpr hlong)
    simp [perform, hostLoad, hfresh, hload]

theorem hostStep_load {s : State} {addr : Nat} {bytes : List Byte} {rest : List HostOp} (hagenda : s.agenda = .load addr bytes :: rest)
    (hfresh : s.fresh = true) (hfits : addr + bytes.length ≤ 4096) :
    hostStep s = { s with M := Memory.writeBytes s.M addr bytes, agenda := rest } :=
  hostStep_of_next ((step_of_agenda_cons hagenda).trans (hostLoad_next.mpr ⟨hfresh, decide_eq_true hfits, rfl⟩))

/-- The state after the four boot operations (70_reset_and_hazards.md R245). -/
def bootedState (s : State) (font program : List Byte) (keys : Vector Bool 16) (rest : List HostOp) : State :=
  { s.hostReset with
    M := Memory.writeBytes (Memory.writeBytes [] Config.fontBase font) Config.programBase program
    K := keys
    agenda := rest }

theorem hostRun_boot {s : State} {font program : List Byte} {keys : Vector Bool 16} {boot rest : List HostOp}
    (hboot : bootAgenda font program keys = some boot) (hfont : font.length ≤ 80) (hagenda : s.agenda = boot ++ rest) :
    hostRun 4 s = bootedState s font program keys rest := by
  unfold bootAgenda at hboot
  split at hboot
  · next hrom =>
    cases hboot
    have hlen : program.length ≤ 3584 := of_decide_eq_true hrom
    have hprogram : 0x200 + program.length ≤ 4096 := by omega
    have hfits : 0 + font.length ≤ 4096 := by omega
    have hreset := hostStep_of_next (step_of_agenda_cons hagenda)
    rw [hostRun, hreset, hostRun, hostStep_load rfl rfl hfits, hostRun, hostStep_load rfl rfl hprogram]
    rfl
  · cases hboot

/-- Settles O51: after the four operations the state is `bootedState`; the program's bytes do not reach the font's. -/
theorem bootPlacesFontAndProgram : Obligations.BootPlacesFontAndProgram := by
  intro s font program keys boot rest hboot hfont hagenda
  rw [hostRun_boot hboot hfont hagenda]
  refine ⟨rfl, rfl, rfl, fun j hj => ?_, fun j hj => ?_, fun k => rfl⟩
  · have hbelow : ¬(0x200 ≤ j ∧ j < 0x200 + program.length) := by omega
    have hread := Memory.read_writeBytes_inside [] Config.fontBase font j hj
    rw [Nat.zero_add] at hread
    exact (Memory.read_writeBytes_outside _ _ program j hbelow).trans hread
  · exact Memory.read_writeBytes_inside _ _ program j hj

end Sys2Proof.Proofs

/-! ### PROOFS. Call, return and the skips on two registers (40_control.md) -/

namespace Sys2Proof.Proofs
open Sys2Proof.Machine Sys2Proof.Claims

/-- A form whose words are `packXYN op` with a fixed low nibble is what exactly the words with that `OP` and that low nibble decode to. -/
theorem decodesXY_of_encode {op low : BitVec 4} {f : Reg → Reg → Instr} (hword : ∀ x y, encode (f x y) = packXYN op x y low) :
    DecodesXY op low f := by
  intro w x y
  change _ ↔ fieldOp w = op ∧ (fieldX w).val = x.val ∧ (fieldY w).val = y.val ∧ w.extractLsb' 0 4 = low
  have hlow : w.extractLsb' 0 4 = low ↔ fieldN w = low.toFin := BitVec.toFin_inj.symm
  rw [hlow, ← Fin.ext_iff, ← Fin.ext_iff, ← packXYN_eq_iff, ← hword, decodeWord_eq_ok_iff]

theorem decodeWord_eq_ret_iff {w : Word} : decodeWord w = .ok .ret ↔ w = 0x00EE :=
  decodeWord_eq_ok_iff.trans eq_comm

/-- Settles O16: 00EE is `pop` into `pc` (`exec_ret_next`), and fails exactly on an empty stack (`exec_ret_fault`). -/
theorem returnPopsOrUnderflows : Obligations.ReturnPopsOrUnderflows := by
  refine ⟨fun _ => decodeWord_eq_ret_iff, fun s => ⟨fun hempty => (exec_ret_fault s _).mpr ⟨hempty, rfl⟩, fun k hk => ?_⟩⟩
  have htop : s.SP.val - 1 = k.val := by omega
  exact ⟨_, (exec_ret_next s _).mpr ⟨by omega, rfl⟩, by simp [htop], htop, unchangedExcept_setSP s _ _⟩

/-- Settles O18: 2NNN is `push` and one write of `pc` (`exec_call_next`), and fails exactly on a full stack (`exec_call_fault`). -/
theorem callPushesOrOverflows : Obligations.CallPushesOrOverflows := by
  refine ⟨decodesNNN_of_encode (fun _ => rfl) fun _ => decodeWord_encode _, fun nnn s =>
    ⟨fun hfull => (exec_call_fault nnn s _).mpr ⟨hfull, rfl⟩, fun k hk => ?_⟩⟩
  refine ⟨_, (exec_call_next nnn s _).mpr ⟨by omega, rfl⟩, by simp [hk], fun j hj => ?_, congrArg (· + 1) hk,
    toNat_addressOperand nnn, unchangedExcept_setStack s _ _ _⟩
  have hne : s.SP.val ≠ j.val := fun h => hj (Fin.ext (h.symm.trans hk))
  simp [hne]

/-- A word of group 5 or 9 with a low nibble other than 0 is unknown (D10). -/
theorem decodeWord_of_fieldN_ne_zero {w : Word} (hop : fieldOp w = 0x5 ∨ fieldOp w = 0x9) (hn : fieldN w ≠ 0) :
    decodeWord w = .error (.unknownInstruction w) := by
  obtain hop | hop := hop
  all_goals simp [decodeWord, hop, hn]

/-- Settles O20: each is `skipIf` on its own test of V[X] and V[Y]. -/
theorem skipsOnRegisters : Obligations.SkipsOnRegisters :=
  ⟨decodesXY_of_encode fun _ _ => rfl, decodesXY_of_encode fun _ _ => rfl,
   fun _ hop hlow => decodeWord_of_fieldN_ne_zero hop fun h => hlow (BitVec.toFin_inj.mp h),
   fun _ _ _ => ⟨skipsIff_of_exec rfl beq_iff_eq, skipsIff_of_exec rfl bne_iff_ne⟩⟩

/-- Settles O22: the return pops the slot that the call pushed, and all other slots are those of before. -/
theorem callThenReturnResumes : Obligations.CallThenReturnResumes := by
  intro nnn s hSP
  have hcall := (exec_call_next nnn s _).mpr ⟨hSP, rfl⟩
  refine ⟨_, _, hcall, (exec_ret_next _ _).mpr ⟨Nat.succ_pos s.SP.val, rfl⟩, by simp, rfl, fun k hk => ?_, fun p hp => ?_⟩
  · have hne : s.SP.val ≠ k.val := by omega
    simp [hne]
  · by_cases hsp : p = .sp
    · subst hsp
      rfl
    · exact unchangedExcept_trans (unchangedExcept_setStack s _ _ _) (unchangedExcept_setSP _ _ _) p (by simp_all)

end Sys2Proof.Proofs

/-! ### PROOFS. Register arithmetic and the flag (41_alu.md) -/

namespace Sys2Proof.Proofs
open Sys2Proof.Machine Sys2Proof.Claims

/-- Settles O24: each is one register write, of the bitwise operation on the two bytes. -/
theorem moveAndBitwise : Obligations.MoveAndBitwise :=
  ⟨decodesXY_of_encode fun _ _ => rfl, decodesXY_of_encode fun _ _ => rfl, decodesXY_of_encode fun _ _ => rfl,
   decodesXY_of_encode fun _ _ => rfl, fun x y s =>
    ⟨writesReg_of_exec rfl rfl, writesReg_of_exec rfl (BitVec.toNat_or (s.reg x) (s.reg y)),
     writesReg_of_exec rfl (BitVec.toNat_and (s.reg x) (s.reg y)), writesReg_of_exec rfl (BitVec.toNat_xor (s.reg x) (s.reg y))⟩⟩

/-! #### The values and flags of 8XY4 to 8XY7 and 8XYE, as natural numbers -/

theorem toNat_sub_byte (a b : Byte) : (a - b).toNat = (256 + a.toNat - b.toNat) % 256 := by
  have hb := b.isLt
  rw [BitVec.toNat_sub]
  congr 1
  omega

theorem toNat_shiftRight_one (a : Byte) : (a >>> 1).toNat = a.toNat / 2 := by
  rw [BitVec.toNat_ushiftRight, Nat.shiftRight_eq_div_pow, pow_one]

theorem toNat_shiftLeft_one (a : Byte) : (a <<< 1).toNat = a.toNat * 2 % 256 := by
  rw [BitVec.toNat_shiftLeft, Nat.shiftLeft_eq, pow_one]

theorem carryFlag_iff (a b : Byte) : carryFlag a b = true ↔ a.toNat + b.toNat > 255 := decide_eq_true_iff

theorem greaterFlag_iff (a b : Byte) : greaterFlag a b = true ↔ a.toNat > b.toNat := decide_eq_true_iff

theorem lowBit_iff (a : Byte) : lowBit a = true ↔ a.toNat % 2 = 1 := by
  simp [lowBit, BitVec.getLsbD, Nat.testBit_eq_decide_div_mod_eq]

theorem highBit_iff (a : Byte) : highBit a = true ↔ a.toNat / 128 = 1 := by
  have ha := a.isLt
  simp only [highBit, BitVec.getLsbD, Nat.testBit_eq_decide_div_mod_eq, decide_eq_true_eq]
  omega

/-! #### The two writes of a flag instruction -/

/-- For `X` other than 0xF the order of the two writes does not matter. -/
theorem setResultThenFlag_eq_setFlagThenResult (s : State) {x : Reg} (hx : x ≠ regF) (v : Byte) (c : Bool) :
    s.setResultThenFlag x v c = s.setFlagThenResult x v c := by
  have hne : x.val ≠ regF.val := fun h => hx (Fin.ext h)
  simp only [State.setResultThenFlag, State.setFlagThenResult, State.setReg]
  rw [Vector.set_comm _ _ hne]

/-- For `X` = 0xF the second write remains: 8XY4's flag (41_alu.md R120). -/
theorem setResultThenFlag_regF (s : State) (v : Byte) (c : Bool) : s.setResultThenFlag regF v c = s.setReg regF (flagByte c) := by
  simp [State.setResultThenFlag, State.setReg]

/-- For `X` = 0xF the second write remains: the result of 8XY5, 8XY6, 8XY7, 8XYE (41_alu.md R120). -/
theorem setFlagThenResult_regF (s : State) (v : Byte) (c : Bool) : s.setFlagThenResult regF v c = s.setReg regF v := by
  simp [State.setFlagThenResult, State.setReg]

/-- An instruction that is the two writes and `pc <- pc0 + 2`, with `X` other than 0xF, writes V[X] and VF and nothing else. -/
theorem writesRegAndFlag_of_exec {i : Instr} {s : State} {x : Reg} {v : Byte} {b : Bool} {n : Nat} {c : Prop} (hx : x ≠ regF)
    (hexec : exec i s = .next (s.setFlagThenResult x v b).advance) (hvalue : v.toNat = n) (hflag : b = true ↔ c) :
    WritesRegAndFlag i s x n c := by
  have hread := reg_regF_setFlagThenResult s hx v b
  refine ⟨_, hexec, ?_, fun hc => ?_, fun hc => ?_, fun r hrx hrF => ?_, rfl,
    unchangedExcept_advance (unchangedExcept_setFlagThenResult s x v b)⟩
  · simpa using hvalue
  · exact hread.trans (by rw [hflag.mpr hc]; rfl)
  · exact hread.trans (by rw [Bool.eq_false_of_not_eq_true (mt hflag.mp hc)]; rfl)
  · simp [hrx, hrF]

/-- Settles O25: the byte sum and the carry are the sum's two parts, and for `X` other than 0xF both remain. -/
theorem addWithCarryFlag : Obligations.AddWithCarryFlag := by
  refine ⟨decodesXY_of_encode fun _ _ => rfl, fun x y s hx => writesRegAndFlag_of_exec hx ?_
    (BitVec.toNat_add (s.reg x) (s.reg y)) (carryFlag_iff _ _)⟩
  rw [← setResultThenFlag_eq_setFlagThenResult s hx]
  rfl

/-- Settles O26: the byte difference and the strict comparison, of 8XY7 with the operands exchanged. -/
theorem subtractWithStrictFlag : Obligations.SubtractWithStrictFlag :=
  ⟨decodesXY_of_encode fun _ _ => rfl, decodesXY_of_encode fun _ _ => rfl, fun x y s hx =>
    ⟨writesRegAndFlag_of_exec hx rfl (toNat_sub_byte (s.reg x) (s.reg y)) (greaterFlag_iff _ _),
     writesRegAndFlag_of_exec hx rfl (toNat_sub_byte (s.reg y) (s.reg x)) (greaterFlag_iff _ _)⟩⟩

/-- Settles O27: a shift by one halves or doubles, and the bit shifted out is the remainder or the carry. -/
theorem shiftWithBitOut : Obligations.ShiftWithBitOut :=
  ⟨decodesXY_of_encode fun _ _ => rfl, decodesXY_of_encode fun _ _ => rfl, fun x _ s hx =>
    ⟨writesRegAndFlag_of_exec hx rfl (toNat_shiftRight_one (s.reg x)) (lowBit_iff _),
     writesRegAndFlag_of_exec hx rfl (toNat_shiftLeft_one (s.reg x)) (highBit_iff _)⟩⟩

/-- Settles O28: with `X` = 0xF only the second of the two writes is seen. -/
theorem flagRegisterAsDestination : Obligations.FlagRegisterAsDestination := by
  intro y s
  have hadd : exec (.addReg regF y) s = .next (s.setReg regF (flagByte (carryFlag (s.reg regF) (s.reg y)))).advance := by
    rw [← setResultThenFlag_regF]
    rfl
  have hflag {i : Instr} {v : Byte} {c : Bool} {n : Nat} (hexec : exec i s = .next (s.setFlagThenResult regF v c).advance)
      (hvalue : v.toNat = n) : WritesReg i s regF n :=
    writesReg_of_exec (by rwa [setFlagThenResult_regF] at hexec) hvalue
  refine ⟨⟨fun hcarry => ?_, fun hcarry => ?_⟩, hflag rfl (toNat_sub_byte _ _), hflag rfl (toNat_shiftRight_one _),
    hflag rfl (toNat_sub_byte _ _), hflag rfl (toNat_shiftLeft_one _)⟩
  · exact writesReg_of_exec hadd (by rw [(carryFlag_iff _ _).mpr hcarry]; rfl)
  · exact writesReg_of_exec hadd (by rw [Bool.eq_false_of_not_eq_true (mt (carryFlag_iff _ _).mp (by omega))]; rfl)

end Sys2Proof.Proofs

/-! ### PROOFS. Adding to the index pointer, the font address and the random byte (42_index_memory.md, 44_timers_keys_random.md) -/

namespace Sys2Proof.Proofs
open Sys2Proof.Machine Sys2Proof.Claims

theorem toNat_add_wideReg (s : State) (x : Reg) : (s.I + s.wideReg x).toNat = (s.I.toNat + (s.reg x).toNat) % 65536 := by
  rw [BitVec.toNat_add, State.toNat_wideReg]

/-- FX29's product is at most 255 * 5, so 16 bits hold it (42_index_memory.md R143). -/
theorem toNat_wideReg_mul_five (s : State) (x : Reg) : (s.wideReg x * 5).toNat = (s.reg x).toNat * 5 := by
  have hreg := (s.reg x).isLt
  rw [BitVec.toNat_mul, State.toNat_wideReg]
  exact Nat.mod_eq_of_lt (by change _ * 5 < _; omega)

/-- Settles O30: FX1E is one write of `I`, of the sum of two words. -/
theorem addToIndexWraps : Obligations.AddToIndexWraps :=
  ⟨decodesX_of_encode (fun _ => rfl) fun _ => decodeWord_encode _, fun x s => writesIndex_of_exec rfl (toNat_add_wideReg s x)⟩

/-- Settles O31: FX29 is one write of `I`, and the product does not wrap. -/
theorem fontAddressIsFiveTimes : Obligations.FontAddressIsFiveTimes :=
  ⟨decodesX_of_encode (fun _ => rfl) fun _ => decodeWord_encode _, fun x s => writesIndex_of_exec rfl (toNat_wideReg_mul_five s x)⟩

/-- Settles O42: CXNN counts one request and is one register write, of the masked byte. -/
theorem randomByteMasked : Obligations.RandomByteMasked := by
  refine ⟨decodesXNN_of_encode (fun _ _ => rfl) fun _ _ => decodeWord_encode _, fun x nn s => ?_⟩
  have hvalue : (s.randByte.2.setReg x (nn &&& s.randByte.1)).advance.reg x = nn &&& Config.randByte s.draws := by
    rw [State.reg_advance, State.reg_setReg, if_pos rfl]
    rfl
  have hframe := unchangedExcept_trans (unchangedExcept_randByte s)
    (unchangedExcept_setReg_advance s.randByte.2 x (nn &&& s.randByte.1))
  refine ⟨_, rfl, hvalue, rfl, fun k hk => ?_, fun r hr => by simp [hr], rfl, unchangedExcept_mono hframe (by simp)⟩
  rw [hvalue, BitVec.getLsbD_and, hk, Bool.false_and]

end Sys2Proof.Proofs

/-! ### PROOFS. Memory transfer: FX33, FX55, FX65 (42_index_memory.md section 3) -/

namespace Sys2Proof.Proofs
open Sys2Proof.Machine Sys2Proof.Claims

/-- A data instruction whose access does not lie inside memory gives the DATA error, whole (D5, D6). -/
theorem exec_fault_of_data {i : Instr} {s : State} (hlen : 0 < dataLen i) (hrange : s.I.toNat + dataLen i - 1 > 4095) :
    exec i s = .fault (.dataOutOfBounds s.pc (encode i) (max s.I.toNat 4096)) :=
  exec_eq_fault_iff.mpr (.inr (.inr ⟨hlen, hrange, rfl⟩))

theorem memRead_storeAtI_inside (s : State) (bs : List Byte) (j : Nat) (h : j < bs.length) :
    (s.storeAtI bs).advance.memRead (s.I.toNat + j) = bs[j] :=
  Memory.read_writeBytes_inside s.M s.I.toNat bs j h

theorem memRead_storeAtI_outside (s : State) (bs : List Byte) {a : Nat} (h : ¬(s.I.toNat ≤ a ∧ a < s.I.toNat + bs.length)) :
    (s.storeAtI bs).advance.memRead a = s.memRead a :=
  Memory.read_writeBytes_outside s.M s.I.toNat bs a h

theorem unchangedExcept_storeAtI_advance (s : State) (bs : List Byte) :
    UnchangedExcept [.memory, .pc] s (s.storeAtI bs).advance :=
  unchangedExcept_advance (unchangedExcept_storeAtI s bs)

theorem exec_ldB_of_le {x : Reg} {s : State} (h : s.I.toNat + 2 ≤ 4095) :
    exec (.ldB x) s = .next (s.storeAtI (decimalDigits (s.reg x))).advance :=
  (exec_ldB_next x s _).mpr ⟨(s.dataInRange_iff 3).mpr (by omega), rfl⟩

theorem exec_stRegs_of_le {x : Reg} {s : State} (h : s.I.toNat + x.val ≤ 4095) :
    exec (.stRegs x) s = .next (s.storeAtI (s.regsUpTo x)).advance :=
  (exec_stRegs_next x s _).mpr ⟨(s.dataInRange_iff (x.val + 1)).mpr (by omega), rfl⟩

theorem exec_ldRegs_of_le {x : Reg} {s : State} (h : s.I.toNat + x.val ≤ 4095) :
    exec (.ldRegs x) s = .next (s.loadRegs (x.val + 1)).advance :=
  (exec_ldRegs_next x s _).mpr ⟨(s.dataInRange_iff (x.val + 1)).mpr (by omega), rfl⟩

/-- The `k`-th of the three stored bytes is the decimal digit of weight `10 ^ (2 - k)` (42_index_memory.md R144). -/
theorem toNat_getElem_decimalDigits (v : Byte) (k : Nat) (h : k < (decimalDigits v).length) :
    (decimalDigits v)[k].toNat = v.toNat / 10 ^ (2 - k) % 10 := by
  have hv := v.isLt
  have hdiv (d : Nat) (hd : d < 256) : (v / BitVec.ofNat 8 d).toNat = v.toNat / d := by
    rw [BitVec.toNat_udiv, BitVec.toNat_ofNat, Nat.mod_eq_of_lt hd]
  match k, h with
  | 0, _ =>
    change (v / BitVec.ofNat 8 100).toNat = v.toNat / 100 % 10
    rw [hdiv 100 (by decide)]
    omega
  | 1, _ =>
    change (v / BitVec.ofNat 8 10 % 10).toNat = v.toNat / 10 % 10
    rw [BitVec.toNat_umod, hdiv 10 (by decide)]
    rfl
  | 2, _ =>
    change (v % 10).toNat = v.toNat / 1 % 10
    rw [BitVec.toNat_umod, Nat.div_one]
    rfl

/-- Settles O32: FX33 is `storeAtI` of the three digits, or the DATA error. -/
theorem storeDecimalDigits : Obligations.StoreDecimalDigits := by
  refine ⟨decodesX_of_encode (fun _ => rfl) fun _ => decodeWord_encode _, fun x s => ⟨fun hfits => ?_, fun hlong => ?_⟩⟩
  · have hdigit (k : Nat) (hk : k < (decimalDigits (s.reg x)).length) :
        ((s.storeAtI (decimalDigits (s.reg x))).advance.memRead (s.I.toNat + k)).toNat = (s.reg x).toNat / 10 ^ (2 - k) % 10 := by
      rw [memRead_storeAtI_inside s _ k hk, toNat_getElem_decimalDigits]
    have hhundreds : (s.reg x).toNat / 100 % 10 = (s.reg x).toNat / 100 := by
      have := (s.reg x).isLt
      omega
    exact ⟨_, exec_ldB_of_le hfits, (hdigit 0 (by simp)).trans hhundreds, hdigit 1 (by simp),
      (hdigit 2 (by simp)).trans (by simp), fun a ha => memRead_storeAtI_outside s _ ha, rfl, unchangedExcept_storeAtI_advance s _⟩
  · exact exec_fault_of_data (i := .ldB x) (by simp [dataLen]) (by simp only [dataLen]; omega)

/-- The `r`-th stored byte of FX55 is V[r] (42_index_memory.md R145). -/
theorem memRead_storeRegs {s : State} {x r : Reg} (hr : r ≤ x) :
    (s.storeAtI (s.regsUpTo x)).advance.memRead (s.I.toNat + r.val) = s.reg r := by
  have hlen : r.val < (s.regsUpTo x).length := by
    rw [s.length_regsUpTo]
    exact Nat.lt_succ_of_le hr
  rw [memRead_storeAtI_inside s _ r.val hlen, s.getElem_regsUpTo]

/-- Settles O33: FX55 is `storeAtI` of V[0] to V[X], or the DATA error. -/
theorem storeRegisters : Obligations.StoreRegisters := by
  refine ⟨decodesX_of_encode (fun _ => rfl) fun _ => decodeWord_encode _, fun x s => ⟨fun hfits => ?_, fun hlong => ?_⟩⟩
  · refine ⟨_, exec_stRegs_of_le hfits, fun r => memRead_storeRegs, fun a ha => ?_, rfl, unchangedExcept_storeAtI_advance s _⟩
    exact memRead_storeAtI_outside s _ (by rw [s.length_regsUpTo]; omega)
  · exact exec_fault_of_data (i := .stRegs x) (by simp [dataLen]) (by simp only [dataLen]; omega)

/-- FX65's registers: up to V[X] from memory, above as they were (42_index_memory.md R146). -/
theorem reg_loadRegs_of_le {s : State} {x r : Reg} (hr : r ≤ x) :
    (s.loadRegs (x.val + 1)).advance.reg r = s.memRead (s.I.toNat + r.val) := by
  rw [State.reg_advance, s.reg_loadRegs _ (by omega), if_pos (Nat.lt_succ_of_le hr)]
  rfl

theorem reg_loadRegs_of_lt {s : State} {x r : Reg} (hr : x < r) : (s.loadRegs (x.val + 1)).advance.reg r = s.reg r := by
  rw [State.reg_advance, s.reg_loadRegs _ (by omega), if_neg (Nat.not_lt_of_le hr)]

/-- Settles O34: FX65 is `loadRegs`, or the DATA error. -/
theorem loadRegisters : Obligations.LoadRegisters := by
  refine ⟨decodesX_of_encode (fun _ => rfl) fun _ => decodeWord_encode _, fun x s => ⟨fun hfits => ?_, fun hlong => ?_⟩⟩
  · exact ⟨_, exec_ldRegs_of_le hfits, fun r => reg_loadRegs_of_le, fun r => reg_loadRegs_of_lt, by simp,
      unchangedExcept_advance (unchangedExcept_loadRegs s _)⟩
  · exact exec_fault_of_data (i := .ldRegs x) (by simp [dataLen]) (by simp only [dataLen]; omega)

/-- Settles O35: FX55 leaves `I` alone, so FX65 reads what it stored. -/
theorem storeLoadRoundTrip : Obligations.StoreLoadRoundTrip := by
  intro x s bank hfits
  refine ⟨_, _, exec_stRegs_of_le hfits, exec_ldRegs_of_le (s := { (s.storeAtI (s.regsUpTo x)).advance with V := bank }) hfits,
    fun r hr => ?_, fun r hr => reg_loadRegs_of_lt hr⟩
  exact (reg_loadRegs_of_le hr).trans (memRead_storeRegs (s := s) hr)

/-! #### The next fetch sees a store (20_memory.md section 5) -/

/-- After an instruction that ends at `pc0 + 2`, the fetch reads the two bytes at `pc0 + 2` and `pc0 + 3`. -/
theorem fetchWord_advance {s : State} (hpc : s.pc.toNat + 3 ≤ 4095) :
    s.advance.fetchWord = some (s.memRead (s.pc.toNat + 2) ++ s.memRead (s.pc.toNat + 3)) := by
  have hnext : s.advance.pc.toNat = s.pc.toNat + 2 := toNat_pc_add_two (by omega)
  have hfetch := fetchWord_of_le (s := s.advance) (by omega)
  rwa [hnext] at hfetch

/-- A store at `I` is seen by the fetch after it, byte by byte. -/
theorem nextFetchSees_storeAtI {s : State} {bs : List Byte} {stored : Nat → Nat} (hpc : s.pc.toNat + 3 ≤ 4095)
    (hbytes : ∀ (k : Nat) (h : k < bs.length), bs[k].toNat = stored k) :
    NextFetchSees s (s.storeAtI bs).advance bs.length stored := by
  have hcovered (a k : Nat) (hk : k < bs.length) (ha : s.I.toNat + k = a) : ((s.storeAtI bs).memRead a).toNat = stored k := by
    subst ha
    exact (congrArg BitVec.toNat (memRead_storeAtI_inside s bs k hk)).trans (hbytes k hk)
  refine ⟨_, fetchWord_advance (s := s.storeAtI bs) hpc, fun k hk ha => ?_, fun k hk ha => ?_, fun ha => ?_, fun ha => ?_⟩
  · exact (congrArg BitVec.toNat (highByte_append _ _)).trans (hcovered _ k hk ha)
  · exact (congrArg BitVec.toNat (lowByte_append _ _)).trans (hcovered _ k hk ha)
  · exact (highByte_append _ _).trans (memRead_storeAtI_outside s bs ha)
  · exact (lowByte_append _ _).trans (memRead_storeAtI_outside s bs ha)

/-- Settles O36: FX55 and FX33 are stores at `I`, which the next fetch sees (`nextFetchSees_storeAtI`). -/
theorem storeSeenByNextFetch : Obligations.StoreSeenByNextFetch := by
  refine ⟨fun x s hfits hpc => ⟨_, exec_stRegs_of_le hfits, ?_⟩, fun x s hfits hpc => ⟨_, exec_ldB_of_le hfits, ?_⟩,
    fun x s hx hI hfits => ?_⟩
  · rw [← s.length_regsUpTo x]
    refine nextFetchSees_storeAtI hpc fun k hk => ?_
    have hk16 : k < 16 := by
      rw [s.length_regsUpTo] at hk
      omega
    rw [s.getElem_regsUpTo]
    simp [Fin.ofNat, Nat.mod_eq_of_lt hk16]
  · exact nextFetchSees_storeAtI hpc (toNat_getElem_decimalDigits (s.reg x))
  · have hIpc : s.I.toNat = s.pc.toNat + 2 := by rw [hI, toNat_pc_add_two (by omega)]
    have hV0 := memRead_storeRegs (s := s) (x := x) (r := 0) (Fin.zero_le x)
    have hV1 := memRead_storeRegs (s := s) (x := x) (r := 1) hx
    rw [hIpc] at hV0 hV1
    refine ⟨_, exec_stRegs_of_le (by omega), ?_⟩
    rw [fetchWord_advance (s := s.storeAtI (s.regsUpTo x)) (by rw [State.storeAtI_pc]; omega), ← hV0, ← hV1]
    rfl

end Sys2Proof.Proofs

/-! ### PROOFS. Two runs side by side: what no instruction reads (10_state.md sections 5, 6, 8; 60_exceptions.md section 4) -/

namespace Sys2Proof.Proofs
open Sys2Proof.Machine

/-- The parts of the state that hardly any instruction reads: FX07 reads `DT`, 00EE the live stack slots, and none the others. -/
structure Unread where
  slots : Vector Word 48
  dirty : Bool
  delay : Byte
  sound : Byte

/-- The unread parts of a state. -/
def Unread.of (s : State) : Unread := ⟨s.STK, s.DIRTY, s.DT, s.ST⟩

/-- The state with its unread parts replaced. -/
def Unread.on (u : Unread) (s : State) : State := { s with STK := u.slots, DIRTY := u.dirty, DT := u.delay, ST := u.sound }

/-- What an instruction that completes from `s` makes of the unread parts. -/
def Unread.after (u : Unread) (s : State) : Instr → Unread
  | .cls | .drw _ _ _ => { u with dirty := true }
  | .call _ => { u with slots := u.slots.setIfInBounds s.SP.val (s.pc + 2) }
  | .ldDtVx x => { u with delay := s.reg x }
  | .ldStVx x => { u with sound := s.reg x }
  | _ => u

/-- A map on the next state of a result; errors stay. -/
def mapNext (g : State → State) : Result → Result
  | .next t => .next (g t)
  | .fault f => .fault f
  | .refused r => .refused r

theorem withData_on {u v : Unread} {s : State} {w : Word} {len : Nat} {body : State → State}
    (hbody : body (u.on s) = v.on (body s)) : (u.on s).withData w len body = mapNext v.on (s.withData w len body) := by
  unfold State.withData
  rw [show (u.on s).dataInRange len = s.dataInRange len from rfl, hbody]
  cases s.dataInRange len with
  | false => rfl
  | true => rfl

theorem loadRegs_on (u : Unread) (s : State) (n : Nat) : (u.on s).loadRegs n = u.on (s.loadRegs n) := by
  induction n with
  | zero => rfl
  | succ n ih =>
    rw [State.loadRegs, ih, State.loadRegs]
    rfl

theorem skipIf_on (u : Unread) (s : State) (c : Bool) : (u.on s).skipIf c = u.on (s.skipIf c) := by
  cases c <;> rfl

theorem exec_ret_on {u : Unread} {s : State} (hlive : ∀ k : Fin 48, k.val < s.SP.val → u.slots[k] = s.STK[k]) :
    exec .ret (u.on s) = mapNext u.on (exec .ret s) := by
  by_cases hSP : 0 < s.SP.val
  · rw [(exec_ret_next s _).mpr ⟨hSP, rfl⟩, (exec_ret_next (u.on s) _).mpr ⟨hSP, rfl⟩]
    have htop : u.slots[s.SP.val - 1] = s.STK[s.SP.val - 1] := hlive ⟨s.SP.val - 1, by omega⟩ (Nat.sub_lt hSP Nat.one_pos)
    change Host.Outcome.next (State.setPc _ u.slots[s.SP.val - 1]) = _
    rw [htop]
    rfl
  · have hempty : s.SP.val = 0 := Nat.eq_zero_of_not_pos hSP
    rw [(exec_ret_fault s _).mpr ⟨hempty, rfl⟩, (exec_ret_fault (u.on s) _).mpr ⟨hempty, rfl⟩]
    rfl

theorem setIfInBounds_of_lt {α : Type} {n i : Nat} (v : Vector α n) (h : i < n) (x : α) : v.setIfInBounds i x = v.set i x h := by
  ext j hj
  rw [Vector.getElem_setIfInBounds, Vector.getElem_set]

theorem exec_call_on (u : Unread) (s : State) (nnn : BitVec 12) :
    exec (.call nnn) (u.on s) = mapNext (u.after s (.call nnn)).on (exec (.call nnn) s) := by
  by_cases hSP : s.SP.val < 48
  · rw [(exec_call_next nnn s _).mpr ⟨hSP, rfl⟩, (exec_call_next nnn (u.on s) _).mpr ⟨hSP, rfl⟩]
    rw [Unread.after, setIfInBounds_of_lt _ hSP]
    rfl
  · have hfull : s.SP.val = 48 := by omega
    rw [(exec_call_fault nnn s _).mpr ⟨hfull, rfl⟩, (exec_call_fault nnn (u.on s) _).mpr ⟨hfull, rfl⟩]
    rfl

/-- An instruction runs alike whatever the unread parts are, as long as the slots below `SP` are the same and, for FX07, `DT` is. -/
theorem exec_on {i : Instr} {s : State} {u : Unread} (hlive : ∀ k : Fin 48, k.val < s.SP.val → u.slots[k] = s.STK[k])
    (hdelay : (∀ x, i ≠ .ldVxDt x) ∨ u.delay = s.DT) : exec i (u.on s) = mapNext (u.after s i).on (exec i s) := by
  cases i
  case ret => exact exec_ret_on hlive
  case call nnn => exact exec_call_on u s nnn
  case drw | ldB | stRegs =>
    simp only [exec, execDrw, execLdB, execStRegs]
    exact withData_on rfl
  case ldRegs x =>
    simp only [exec, execLdRegs]
    exact withData_on (congrArg State.advance (loadRegs_on u s _))
  case seImm | sneImm | seReg | sneReg | skp | sknp => exact congrArg Host.Outcome.next (skipIf_on u s _)
  case ldVxK x =>
    cases hscan : s.firstKey with
    | none =>
      rw [exec_ldVxK_none x s hscan, exec_ldVxK_none x (u.on s) hscan]
      rfl
    | some k =>
      rw [exec_ldVxK_some x s k hscan, exec_ldVxK_some x (u.on s) k hscan]
      rfl
  case ldVxDt x =>
    have hDT : u.delay = s.DT := hdelay.resolve_left fun h => h x rfl
    change Host.Outcome.next (State.setReg (u.on s) x u.delay).advance = _
    rw [hDT]
    rfl
  all_goals rfl

/-- The unread parts of the state after an instruction. -/
theorem unreadOf_of_exec {i : Instr} {s t : State} (h : exec i s = .next t) : Unread.of t = (Unread.of s).after s i := by
  have hself : exec i s = mapNext ((Unread.of s).after s i).on (exec i s) :=
    exec_on (u := Unread.of s) (fun _ _ => rfl) (.inr rfl)
  rw [h] at hself
  have ht : t = ((Unread.of s).after s i).on t := Host.Outcome.next.inj hself
  exact congrArg Unread.of ht

/-! #### `Tick` -/

/-- `Tick` on the unread parts (60_exceptions.md R214). -/
def Unread.tick (u : Unread) : Unread := { u with delay := tickTimer u.delay, sound := tickTimer u.sound }

theorem tick_eq_on (s : State) : s.tick = (Unread.of s).tick.on s := rfl

theorem after_tick {i : Instr} (hi : ∀ x, i ≠ .ldVxDt x ∧ i ≠ .ldDtVx x ∧ i ≠ .ldStVx x) (u : Unread) (s : State) :
    u.tick.after s i = (u.after s i).tick := by
  cases i
  case ldDtVx x => exact absurd rfl (hi x).2.1
  case ldStVx x => exact absurd rfl (hi x).2.2
  all_goals rfl

/-- Settles O59: a `Tick` changes only unread parts, and the instruction runs alike (`exec_on`) and writes no timer. -/
theorem tickCommutesWithOtherInstructions : Obligations.TickCommutesWithOtherInstructions := by
  intro i s t hi h
  rw [tick_eq_on s, exec_on (fun _ _ => rfl) (.inl fun x => (hi x).1), h, after_tick hi, ← unreadOf_of_exec h]
  rfl

/-! #### Related results -/

/-- Both results are next states that `R` relates, or the same error. -/
inductive SameResult (R : State → State → Prop) : Result → Result → Prop
  | next {s t : State} (h : R s t) : SameResult R (.next s) (.next t)
  | fault (f : Fault) : SameResult R (.fault f) (.fault f)
  | refused (r : Refusal) : SameResult R (.refused r) (.refused r)

/-- Of related results the first one determines the second, up to `R`. -/
theorem sameResult_transfer {R : State → State → Prop} {r q : Result} (h : SameResult R r q) :
    (∀ s, r = .next s → ∃ t, q = .next t ∧ R s t) ∧ (∀ f, r = .fault f → q = .fault f) ∧ (∀ x, r = .refused x → q = .refused x) := by
  cases h with
  | next h => exact ⟨fun _ hr => ⟨_, rfl, Host.Outcome.next.inj hr ▸ h⟩, nofun, nofun⟩
  | fault f => exact ⟨nofun, fun _ hr => hr, nofun⟩
  | refused x => exact ⟨nofun, nofun, fun _ hr => hr⟩

theorem sameResult_mapNext {R : State → State → Prop} {g : State → State} {r : Result} (h : ∀ t, r = .next t → R t (g t)) :
    SameResult R r (mapNext g r) := by
  cases r with
  | next t => exact .next (h t rfl)
  | fault f => exact .fault f
  | refused q => exact .refused q

/-- What an instruction makes of each unread part depends on no other one. -/
theorem after_congr (u v : Unread) (s : State) (i : Instr) :
    (u.slots = v.slots → (u.after s i).slots = (v.after s i).slots) ∧ (u.dirty = v.dirty → (u.after s i).dirty = (v.after s i).dirty) ∧
    (u.delay = v.delay → (u.after s i).delay = (v.after s i).delay) ∧ (u.sound = v.sound → (u.after s i).sound = (v.after s i).sound) := by
  cases i
  case cls | drw => exact ⟨id, fun _ => rfl, id, id⟩
  case call => exact ⟨congrArg (Vector.setIfInBounds · s.SP.val (s.pc + 2)), id, id, id⟩
  case ldDtVx => exact ⟨id, id, fun _ => rfl, id⟩
  case ldStVx => exact ⟨id, id, id, fun _ => rfl⟩
  all_goals exact ⟨id, id, id, id⟩

theorem exec_sameButDirtyAndSound {i : Instr} {s t : State} (h : SameButDirtyAndSound s t) :
    SameResult SameButDirtyAndSound (exec i s) (exec i t) := by
  have ht : t = (⟨s.STK, t.DIRTY, s.DT, t.ST⟩ : Unread).on s := h
  rw [ht, exec_on (fun _ _ => rfl) (.inr rfl)]
  refine sameResult_mapNext fun s' hs' => ?_
  obtain ⟨hslots, -, hdelay, -⟩ := after_congr ⟨s.STK, t.DIRTY, s.DT, t.ST⟩ (Unread.of s) s i
  rw [← unreadOf_of_exec hs'] at hslots hdelay
  rw [SameButDirtyAndSound, Unread.on, hslots rfl, hdelay rfl]
  rfl

/-- Settles O58: two states that differ in `DIRTY` and `ST` differ in unread parts only (`exec_sameButDirtyAndSound`). -/
theorem dirtyAndSoundUnreadable : Obligations.DirtyAndSoundUnreadable := by
  intro i s t h
  obtain ⟨hnext, hfault, -⟩ := sameResult_transfer (exec_sameButDirtyAndSound (i := i) h)
  exact ⟨hnext, hfault⟩

/-! #### Dead stack slots -/

/-- The slots `stk` hold the live return addresses of `s`. -/
def Live (stk : Vector Word 48) (s : State) : Prop := ∀ k : Fin 48, k.val < s.SP.val → stk[k] = s.STK[k]

theorem sameLiveStack_iff {s t : State} : SameLiveStack s t ↔ ∃ stk, Live stk s ∧ t = { s with STK := stk } := by
  constructor
  · rintro ⟨ht, hlive⟩
    exact ⟨t.STK, hlive, ht⟩
  · rintro ⟨stk, hlive, rfl⟩
    exact ⟨rfl, hlive⟩

theorem sp_le_of_exec {i : Instr} {s t : State} (hcall : ∀ nnn, i ≠ .call nnn) (h : exec i s = .next t) : t.SP.val ≤ s.SP.val := by
  by_cases hret : i = .ret
  · subst hret
    obtain ⟨_, rfl⟩ := (exec_ret_next s t).mp h
    exact Nat.sub_le _ _
  · have hSP : t.SP = s.SP := (exec_next_frame h).2 .sp (by cases i <;> simp_all [destParts])
    rw [hSP]

/-- The slots that an instruction leaves live are the same, if the live ones were: 2NNN pushes the same address, and no other raises
`SP`. -/
theorem live_after {i : Instr} {s t : State} {u : Unread} (hlive : Live u.slots s) (h : exec i s = .next t) :
    Live (u.after s i).slots t := by
  intro k hk
  have hslots : t.STK = ((Unread.of s).after s i).slots := congrArg Unread.slots (unreadOf_of_exec h)
  rw [hslots]
  by_cases hcall : ∃ nnn, i = .call nnn
  · obtain ⟨nnn, rfl⟩ := hcall
    obtain ⟨_, rfl⟩ := (exec_call_next nnn s t).mp h
    have hk' : k.val < s.SP.val + 1 := hk
    by_cases htop : s.SP.val = k.val
    · simp [Unread.after, htop]
    · have hold : u.slots[k.val] = (Unread.of s).slots[k.val] := hlive k (by omega)
      simpa [Unread.after, htop] using hold
  · have hSP := sp_le_of_exec (fun nnn hi => hcall ⟨nnn, hi⟩) h
    have hold := hlive k (by omega)
    cases i
    case call nnn => exact absurd ⟨nnn, rfl⟩ hcall
    all_goals exact hold

theorem exec_sameLiveStack {s : State} {stk : Vector Word 48} (hlive : Live stk s) (i : Instr) :
    SameResult SameLiveStack (exec i s) (exec i { s with STK := stk }) := by
  have hexec : exec i { s with STK := stk } = mapNext ((⟨stk, s.DIRTY, s.DT, s.ST⟩ : Unread).after s i).on (exec i s) :=
    exec_on (u := ⟨stk, s.DIRTY, s.DT, s.ST⟩) hlive (.inr rfl)
  rw [hexec]
  refine sameResult_mapNext fun t ht => sameLiveStack_iff.mpr ⟨_, live_after (u := ⟨stk, s.DIRTY, s.DT, s.ST⟩) hlive ht, ?_⟩
  obtain ⟨-, hdirty, hdelay, hsound⟩ := after_congr ⟨stk, s.DIRTY, s.DT, s.ST⟩ (Unread.of s) s i
  rw [← unreadOf_of_exec ht] at hdirty hdelay hsound
  rw [Unread.on, hdirty rfl, hdelay rfl, hsound rfl]
  rfl

theorem sameLiveStack_refl (s : State) : SameLiveStack s s := ⟨rfl, fun _ _ => rfl⟩

theorem executeWord_sameLiveStack {s : State} {stk : Vector Word 48} (hlive : Live stk s) (w : Word) :
    SameResult SameLiveStack (executeWord w s) (executeWord w { s with STK := stk }) := by
  cases h : decodeWord w with
  | ok i =>
    rw [executeWord_of_decode h, executeWord_of_decode h]
    exact exec_sameLiveStack hlive i
  | error e =>
    rw [executeWord_of_error h, executeWord_of_error h]
    exact .next ⟨rfl, hlive⟩

theorem cycle_sameLiveStack {s : State} {stk : Vector Word 48} (hlive : Live stk s) :
    SameResult SameLiveStack (cycle s) (cycle { s with STK := stk }) := by
  cases hs : s.stoppedBy with
  | some f =>
    rw [cycle_of_stopped hs, cycle_of_stopped (s := { s with STK := stk }) hs]
    exact .fault f
  | none =>
    cases hfetch : s.fetchWord with
    | none =>
      rw [cycle_of_fetch_none hs hfetch, cycle_of_fetch_none (s := { s with STK := stk }) hs hfetch]
      exact .fault _
    | some w =>
      rw [cycle_of_fetch hs hfetch, cycle_of_fetch (s := { s with STK := stk }) hs hfetch]
      exact executeWord_sameLiveStack (s := s.beginCycle) hlive w

theorem perform_sameLiveStack {s : State} {stk : Vector Word 48} (hlive : Live stk s) (op : HostOp) :
    SameResult SameLiveStack (perform op s) (perform op { s with STK := stk }) := by
  cases op with
  | reset => exact .next (sameLiveStack_refl _)
  | cycle => exact cycle_sameLiveStack hlive
  | load addr bytes =>
    simp only [perform, hostLoad]
    split_ifs
    · exact .next ⟨rfl, hlive⟩
    · exact .refused _
    · exact .refused _
  | tick | keysWrite _ | dirtyAck | observe => exact .next ⟨rfl, hlive⟩

theorem step_sameLiveStack {s t : State} (h : SameLiveStack s t) : SameResult SameLiveStack (step s) (step t) := by
  obtain ⟨stk, hlive, rfl⟩ := sameLiveStack_iff.mp h
  by_cases hagenda : s.agenda = []
  · rw [step_of_agenda_nil hagenda, step_of_agenda_nil (s := { s with STK := stk }) hagenda]
    exact cycle_sameLiveStack hlive
  · obtain ⟨op, rest, hcons⟩ := List.exists_cons_of_ne_nil hagenda
    rw [step_of_agenda_cons hcons, step_of_agenda_cons (s := { s with STK := stk }) hcons]
    exact perform_sameLiveStack (s := { s with agenda := rest }) hlive op

/-- Settles O57: no operation reads a slot at or above `SP`; the instructions by `exec_on` and `live_after`, the host's operations
look at no slot. -/
theorem deadStackSlotsUnobservable : Obligations.DeadStackSlotsUnobservable := fun _ _ h => sameResult_transfer (step_sameLiveStack h)

end Sys2Proof.Proofs

/-! ### PROOFS. Drawing (43_display.md section 3) -/

namespace Sys2Proof.Proofs
open Sys2Proof.Machine Sys2Proof.Claims

/-! #### Only the wrapped coordinates matter -/

theorem wrapColumn_congr {x0 x1 : Nat} (h : x0 % 64 = x1 % 64) (col : Nat) : wrapColumn x0 col = wrapColumn x1 col :=
  Fin.ext (by simp only [val_wrapColumn]; omega)

theorem wrapRow_congr {y0 y1 : Nat} (h : y0 % 32 = y1 % 32) (row : Nat) : wrapRow y0 row = wrapRow y1 row :=
  Fin.ext (by simp only [val_wrapRow]; omega)

theorem drawRow_congr {x0 x1 : Nat} (h : x0 % 64 = x1 % 64) (py : Fin 32) (b : Byte) (c : Grid × Bool) :
    drawRow x0 py b c = drawRow x1 py b c := by
  have hbit : drawBit x0 py b = drawBit x1 py b := by
    funext c col
    rw [drawBit, drawBit, wrapColumn_congr h]
  rw [drawRow, drawRow, hbit]

theorem drawRows_congr {x0 x1 y0 y1 : Nat} (hx : x0 % 64 = x1 % 64) (hy : y0 % 32 = y1 % 32) (row : Nat) (bs : List Byte)
    (c : Grid × Bool) : drawRows x0 y0 row bs c = drawRows x1 y1 row bs c := by
  induction bs generalizing row c with
  | nil => rfl
  | cons b bs ih => rw [drawRows_cons, drawRows_cons, ih, wrapRow_congr hy, drawRow_congr hx]

/-- Settles O40: the coordinates enter through `wrapColumn` and `wrapRow` only. -/
theorem drawDependsOnWrappedCoordinates : Obligations.DrawDependsOnWrappedCoordinates := fun _ _ _ _ sprite g hx hy =>
  drawRows_congr hx hy 0 sprite (g, false)

/-! #### The compositor inverts a set of pixels and remembers a collision -/

/-- Going from `c` to `d` inverts exactly the pixels of `S`, and adds a collision exactly if one of them was 1. -/
structure Drawn (S : Fin 64 → Fin 32 → Prop) (c d : Grid × Bool) : Prop where
  covered : ∀ x y, S x y → Grid.pixel d.1 x y = !Grid.pixel c.1 x y
  other : ∀ x y, ¬S x y → Grid.pixel d.1 x y = Grid.pixel c.1 x y
  collision : d.2 = true ↔ c.2 = true ∨ ∃ x y, S x y ∧ Grid.pixel c.1 x y = true

theorem drawn_refl {S : Fin 64 → Fin 32 → Prop} (hempty : ∀ x y, ¬S x y) (c : Grid × Bool) : Drawn S c c where
  covered x y h := absurd h (hempty x y)
  other _ _ _ := rfl
  collision := by simp [hempty]

theorem drawn_congr {S T : Fin 64 → Fin 32 → Prop} {c d : Grid × Bool} (h : Drawn S c d) (hST : ∀ x y, S x y ↔ T x y) : Drawn T c d := by
  have hset : S = T := funext fun x => funext fun y => propext (hST x y)
  rwa [← hset]

/-- Two disjoint sets drawn one after the other are their union drawn at once: the second meets each of its pixels as it was at first. -/
theorem drawn_trans {S T : Fin 64 → Fin 32 → Prop} {c d e : Grid × Bool} (hcd : Drawn S c d) (hde : Drawn T d e)
    (hdisjoint : ∀ x y, S x y → ¬T x y) : Drawn (fun x y => S x y ∨ T x y) c e where
  covered x y h := by
    obtain hS | hT := h
    · rw [hde.other x y (hdisjoint x y hS), hcd.covered x y hS]
    · rw [hde.covered x y hT, hcd.other x y fun hS => hdisjoint x y hS hT]
  other x y h := by
    rw [not_or] at h
    rw [hde.other x y h.2, hcd.other x y h.1]
  collision := by
    have hmeets : (∃ x y, T x y ∧ Grid.pixel d.1 x y = true) ↔ ∃ x y, T x y ∧ Grid.pixel c.1 x y = true := by
      refine exists_congr fun x => exists_congr fun y => and_congr_right fun hT => ?_
      rw [hcd.other x y fun hS => hdisjoint x y hS hT]
    rw [hde.collision, hcd.collision, hmeets]
    simp only [or_and_right, exists_or, or_assoc]

/-- One bit: nothing if it is 0, its own pixel if it is 1. -/
theorem drawn_drawBit (x0 : Nat) (py : Fin 32) (b : Byte) (c : Grid × Bool) (col : Nat) :
    Drawn (fun x y => b.getLsbD (7 - col) = true ∧ x = wrapColumn x0 col ∧ y = py) c (drawBit x0 py b c col) := by
  rw [drawBit]
  split
  · next hbit =>
    refine ⟨fun x y h => ?_, fun x y h => ?_, ?_⟩
    · obtain ⟨-, rfl, rfl⟩ := h
      simp
    · rw [Grid.pixel_flip, if_neg fun hxy => h ⟨hbit, hxy⟩]
    · simp [hbit]
  · next hbit => exact drawn_refl (fun x y h => hbit h.1) c

/-- The first `n` bits of a sprite row, `n` at most 8: their columns are distinct. -/
theorem drawn_foldl_drawBit (x0 : Nat) (py : Fin 32) (b : Byte) (c : Grid × Bool) (n : Nat) (hn : n ≤ 8) :
    Drawn (fun x y => ∃ col, col < n ∧ b.getLsbD (7 - col) = true ∧ x = wrapColumn x0 col ∧ y = py) c
      ((List.range n).foldl (drawBit x0 py b) c) := by
  induction n with
  | zero => exact drawn_refl (fun x y ⟨_, hcol, _⟩ => Nat.not_lt_zero _ hcol) c
  | succ n ih =>
    rw [List.range_succ, List.foldl_append]
    refine drawn_congr (drawn_trans (ih (by omega)) (drawn_drawBit x0 py b _ n) ?_) fun x y => ?_
    · rintro x y ⟨col, hcol, -, rfl, -⟩ ⟨-, hsame, -⟩
      have := wrapColumn_inj x0 col n (by omega) (by omega) hsame
      omega
    · simp only [Nat.lt_succ_iff_lt_or_eq, or_and_right, exists_or, exists_eq_left]

/-- The pixels that the sprite rows `bs`, of which the first is row number `row`, cover. -/
def RowsCover (x0 y0 row : Nat) (bs : List Byte) (x : Fin 64) (y : Fin 32) : Prop :=
  ∃ (j : Nat) (h : j < bs.length), ∃ col, col < 8 ∧ bs[j].getLsbD (7 - col) = true ∧ x = wrapColumn x0 col ∧ y = wrapRow y0 (row + j)

/-- Sprite rows up to number 14 are distinct, so drawing them inverts exactly the pixels they cover. -/
theorem drawn_drawRows (x0 y0 : Nat) (bs : List Byte) (row : Nat) (c : Grid × Bool) (hrows : row + bs.length ≤ 15) :
    Drawn (RowsCover x0 y0 row bs) c (drawRows x0 y0 row bs c) := by
  induction bs generalizing row c with
  | nil => exact drawn_refl (fun x y ⟨_, hj, _⟩ => Nat.not_lt_zero _ hj) c
  | cons b bs ih =>
    rw [List.length_cons] at hrows
    refine drawn_congr (drawn_trans (drawn_foldl_drawBit x0 (wrapRow y0 row) b c 8 (by decide)) (ih (row + 1) _ (by omega)) ?_)
      fun x y => ?_
    · rintro x y ⟨-, -, -, -, rfl⟩ ⟨j, hj, -, -, -, -, hsame⟩
      have := wrapRow_inj y0 row (row + 1 + j) (by omega) (by omega) hsame
      omega
    · constructor
      · rintro (⟨col, hcol, hbit, hx, hy⟩ | ⟨j, hj, col, hcol, hbit, hx, hy⟩)
        · exact ⟨0, Nat.succ_pos _, col, hcol, hbit, hx, hy⟩
        · exact ⟨j + 1, Nat.succ_lt_succ hj, col, hcol, hbit, hx, by rw [hy, Nat.add_assoc, Nat.add_comm 1 j]⟩
      · rintro ⟨j, hj, col, hcol, hbit, hx, hy⟩
        cases j with
        | zero => exact .inl ⟨col, hcol, hbit, hx, hy⟩
        | succ j => exact .inr ⟨j, Nat.lt_of_succ_lt_succ hj, col, hcol, hbit, hx, by rw [hy, Nat.add_assoc, Nat.add_comm 1 j]⟩

theorem rowsCover_sprite_iff {s : State} {x y : Reg} {n : Nat} {px : Fin 64} {py : Fin 32} :
    RowsCover (s.reg x).toNat (s.reg y).toNat 0 (s.sprite n) px py ↔ SpriteCovers s x y n px py := by
  constructor
  · rintro ⟨row, hrow, col, hcol, hbit, rfl, rfl⟩
    rw [State.getElem_sprite] at hbit
    exact ⟨row, col, by simpa using hrow, hcol, hbit, rfl, by simp⟩
  · rintro ⟨row, col, hrow, hcol, hbit, hx, hy⟩
    refine ⟨row, by simpa using hrow, col, hcol, ?_, Fin.ext hx, Fin.ext (by simpa using hy)⟩
    rw [State.getElem_sprite]
    exact hbit

/-- The drawing of DXYN inverts exactly the pixels that the sprite covers. -/
theorem drawn_compose (s : State) (x y : Reg) (n : Fin 16) :
    Drawn (SpriteCovers s x y n.val) (s.P, false) (compose (s.reg x).toNat (s.reg y).toNat (s.sprite n.val) s.P) :=
  drawn_congr (drawn_drawRows _ _ _ 0 _ (by rw [State.length_sprite]; omega)) fun _ _ => rowsCover_sprite_iff

/-! #### DXYN -/

theorem decodeWord_eq_drw_iff {w : Word} {x y : Reg} {n : Fin 16} : decodeWord w = .ok (.drw x y n) ↔
    w.extractLsb' 12 4 = 0xD ∧ (w.extractLsb' 8 4).toNat = x.val ∧ (w.extractLsb' 4 4).toNat = y.val ∧
      (w.extractLsb' 0 4).toNat = n.val := by
  change _ ↔ fieldOp w = 0xD ∧ (fieldX w).val = x.val ∧ (fieldY w).val = y.val ∧ (fieldN w).val = n.val
  rw [decodeWord_eq_ok_iff, ← Fin.ext_iff, ← Fin.ext_iff, ← Fin.ext_iff]
  exact packXYN_eq_iff

/-- What DXYN leaves, pixel by pixel, and VF. -/
theorem drawSprite_spec (s : State) (x y : Reg) (n : Fin 16) :
    (∀ px py, SpriteCovers s x y n.val px py → Grid.pixel (s.drawSprite x y n.val).P px py = !Grid.pixel s.P px py) ∧
    (∀ px py, ¬SpriteCovers s x y n.val px py → Grid.pixel (s.drawSprite x y n.val).P px py = Grid.pixel s.P px py) ∧
    ((s.drawSprite x y n.val).reg regF = 1 ↔ ∃ px py, SpriteCovers s x y n.val px py ∧ Grid.pixel s.P px py = true) := by
  have hdrawn := drawn_compose s x y n
  refine ⟨hdrawn.covered, hdrawn.other, ?_⟩
  rw [State.reg_drawSprite, if_pos rfl, flagByte_eq_one, hdrawn.collision]
  simp

/-- Settles O38: DXYN is `drawSprite`, of which `drawSprite_spec` says the pixels and VF, or the DATA error. -/
theorem drawComposesPixelwise : Obligations.DrawComposesPixelwise := by
  refine ⟨fun _ _ _ _ => decodeWord_eq_drw_iff, fun x y n s => ⟨fun hfits => ?_, fun hlong => ?_⟩⟩
  · obtain ⟨hcovered, hother, hflag⟩ := drawSprite_spec s x y n
    have hrange : s.dataInRange n.val = true := (s.dataInRange_iff n.val).mpr (by omega)
    refine ⟨_, (exec_drw_next x y n s _).mpr ⟨hrange, rfl⟩, hcovered, hother, hflag.mpr, fun hfree => ?_, fun r hr => ?_, rfl, rfl,
      unchangedExcept_advance (unchangedExcept_drawSprite s x y n.val)⟩
    · refine (drawSprite_regF s x y n.val).resolve_right fun hone => ?_
      obtain ⟨px, py, hcover, hset⟩ := hflag.mp hone
      exact Bool.false_ne_true ((hfree px py hcover).symm.trans hset)
    · simp [hr]
  · exact exec_fault_of_data (i := .drw x y n) hlong.1 hlong.2

/-- Settles O39: the first draw leaves V[X], V[Y], `I` and memory, so the second covers the same pixels and inverts them back. -/
theorem drawTwiceRestores : Obligations.DrawTwiceRestores := by
  intro x y n s t u hx hy ht hu
  obtain ⟨-, rfl⟩ := (exec_drw_next x y n s t).mp ht
  obtain ⟨-, rfl⟩ := (exec_drw_next x y n _ u).mp hu
  obtain ⟨hcovered₁, hother₁, -⟩ := drawSprite_spec s x y n
  obtain ⟨hcovered₂, hother₂, hflag₂⟩ := drawSprite_spec (s.drawSprite x y n.val).advance x y n
  have hcover (px : Fin 64) (py : Fin 32) :
      SpriteCovers (s.drawSprite x y n.val).advance x y n.val px py ↔ SpriteCovers s x y n.val px py := by
    simp [SpriteCovers, hx, hy]
  refine ⟨fun px py => ?_, hflag₂.trans ?_⟩
  · by_cases h : SpriteCovers s x y n.val px py
    · exact (hcovered₂ px py ((hcover px py).mpr h)).trans (by rw [State.advance_P, hcovered₁ px py h, Bool.not_not])
    · exact (hother₂ px py (mt (hcover px py).mp h)).trans (hother₁ px py h)
  · refine exists_congr fun px => exists_congr fun py => ?_
    rw [hcover]
    refine and_congr_right fun h => ?_
    rw [State.advance_P, hcovered₁ px py h, Bool.not_eq_true']

end Sys2Proof.Proofs
